-- ==== Sys2Proof/Word.lean ====
section
/-! DEFINITION. The word types of the NG block (spec/00_scope.md R8, spec/30_encoding.md R67).
Registers whose width is the parameter `ACC_W` are naturals narrowed to that width where they are written
(notes/assumptions/3.md); every value of one fixed width is a bit vector. -/

namespace Sys2Proof

/-- One bit on a port or in the output register: 0 or 1 (R20, R65). -/
abbrev Bit := BitVec 1

/-- A 32-bit unsigned value: `STATE`, the argument of a command, the multiplier (R21, R67). -/
abbrev Word32 := BitVec 32

/-- The 35-bit command word of R67. -/
abbrev CmdWord := BitVec 35

end Sys2Proof
end

