-- ==== Sys2Proof/Syntax.lean ====
section
/-! DEFINITION. The commands, one constructor per row of spec/opcode_table.json (spec/30_encoding.md R68). -/

namespace Sys2Proof

/-- The seven commands of R68 with their arguments (R69), and the table's reserved row. -/
inductive Instr where
  /-- `CFG e`: Configure (R90). The field holds 2 bits, the value 3 is not well formed (R94). -/
  | cfg (e : BitVec 2)
  /-- `SRC sel`: SelectClockSource (R100). The whole argument is kept and masked by the meaning, as R77 allows. -/
  | src (sel : Word32)
  /-- `TICK` (R110). -/
  | tick
  /-- `TRIG`: Trigger (R120). -/
  | trig
  /-- `SYNC a` (R130), the source's boolean `active`. -/
  | sync (active : Bool)
  /-- `SEED v` (R140). -/
  | seed (v : Word32)
  /-- `LVL`: Level (R145). -/
  | lvl
  /-- `RESERVED7`: every word with `op = 7` (R75 (a)), not an instruction: its meaning refuses. -/
  | reserved7
  deriving DecidableEq, Repr

end Sys2Proof
end

