-- ==== Sys2Proof/WellFormed.lean ====
section
/-! DEFINITION. Which terms of `Instr` are instructions with an encoding of their own (spec/30_encoding.md R69, R75). -/

namespace Sys2Proof

/-- The one check the operand types leave open: the exponent of CFG is 0, 1 or 2 (R69 (a), R94). -/
def Instr.wellFormed : Instr → Bool
  | .cfg e => e != 3
  | .src _ => true
  | .tick => true
  | .trig => true
  | .sync _ => true
  | .seed _ => true
  | .lvl => true
  | .reserved7 => true

end Sys2Proof
end

