-- ==== Sys2Proof/Decode.lean ====
section
/-! DEFINITION. The decoder of spec/30_encoding.md R77 and, after it, the encoder of R67, R69 and R78. -/

namespace Sys2Proof

/-- Why a command word is no instruction. -/
inductive DecodeError where
  /-- `op = 0` with `arg > 2`: a reserved encoding (R75 (b), R94). -/
  | reservedExponent
  deriving DecidableEq, Repr

/-- `cmd[34:32]`, the opcode (R67). -/
def opField (w : CmdWord) : BitVec 3 := w.extractLsb' 32 3

/-- `cmd[31:0]`, the argument (R67). -/
def argField (w : CmdWord) : Word32 := w.extractLsb' 0 32

/-- The decoding procedure of R77. It is total and reads no register. The reserved opcode 7 decodes to its row of the
table, whose meaning refuses. -/
def decode (w : CmdWord) : Except DecodeError Instr :=
  match (opField w).toNat with
  | 0 => if argField w > 2 then .error .reservedExponent else .ok (.cfg ((argField w).extractLsb' 0 2))
  | 1 => .ok (.src (argField w))
  | 2 => .ok .tick
  | 3 => .ok .trig
  | 4 => .ok (.sync ((argField w).getLsbD 0))
  | 5 => .ok (.seed (argField w))
  | 6 => .ok .lvl
  | _ => .ok .reserved7

/-- The opcode of each command (R68). -/
def Instr.opcode : Instr → BitVec 3
  | .cfg _ => 0
  | .src _ => 1
  | .tick => 2
  | .trig => 3
  | .sync _ => 4
  | .seed _ => 5
  | .lvl => 6
  | .reserved7 => 7

/-- The canonical argument of each command: 0 where the command takes none (R69 (e)), ignored bits 0 (R69 (c)). -/
def Instr.argument : Instr → Word32
  | .cfg e => e.setWidth 32
  | .src sel => sel
  | .tick => 0
  | .trig => 0
  | .sync active => if active then 1 else 0
  | .seed v => v
  | .lvl => 0
  | .reserved7 => 0

/-- The command word with the given fields: `op << 32 | arg` (R67, R78). -/
def wordOf (op : BitVec 3) (arg : Word32) : CmdWord := (op.setWidth 35 <<< 32) ||| arg.setWidth 35

/-- The canonical command word of an instruction (R78). -/
def encode (i : Instr) : CmdWord := wordOf i.opcode i.argument

/-- The command word on the 35 wires of the `cmd` port when the host presents a table word of `nbits` bits numbered
as spec/opcode_table.json numbers them: bit 0 of `w` is bit 0 of `cmd` (R51). Bits 35 and up have no wire (DESIGN
CHOICE, safe: notes/assumptions/16.md). -/
def portWord (nbits w : Nat) : CmdWord := BitVec.ofNat 35 (w % 2 ^ nbits)

/-- The instruction the decoder reads from a table word. -/
def decodeTableWord (nbits w : Nat) : Option Instr := (decode (portWord nbits w)).toOption

end Sys2Proof
end

