-- ==== Sys2Proof/Config.lean ====
section
/-! DEFINITION. The build-time parameters of an instance (spec/00_scope.md R5). A configuration never changes
during a run (R43, R150); which configurations are admitted is `Machine.validConfig` (R6). -/

namespace Sys2Proof

/-- Which state-update algorithm the instance has (R150): `a` the arithmetic recurrence of R151, `b` the shift
register of R155. -/
inductive Variant where
  | a
  | b
  deriving DecidableEq, Repr, Inhabited

/-- The parameters of R5 under their names there. `STATE_W` is no field: its domain is the one value 32. -/
structure Config where
  /-- `VARIANT` (OPEN, no default). -/
  variant : Variant
  /-- `ACC_W`, the width of `ACC`, `INC` and `THR`, at least 32. -/
  accW : Nat
  /-- `THRESH_BASE`, the fixed base rate that `THR` is a right shift of. -/
  threshBase : Nat
  /-- `INC_BASE`, the fixed base increment that `INC` is a right shift of. -/
  incBase : Nat
  /-- `LCG_MUL`, the multiplier of Variant A. -/
  lcgMul : Word32
  /-- `LCG_ADD`, the addend of Variant A. -/
  lcgAdd : Word32
  /-- `LCG_CMP`, the comparison constant of Variant A. -/
  lcgCmp : Word32
  /-- `TAP_HI`, the upper tap of Variant B. -/
  tapHi : Fin 32
  /-- `TAP_LO`, the lower tap of Variant B. -/
  tapLo : Fin 32
  /-- `INS_AGREE`, the bit inserted when the two taps are equal. -/
  insAgree : Bit
  /-- `INS_DISAGREE`, the bit inserted when the two taps differ. -/
  insDisagree : Bit
  /-- `RESET_SEED`, the value of `STATE` after reset. -/
  resetSeed : Word32
  /-- `RESET_EXP`, the value of `EXP` after reset: 0, 1 or 2. -/
  resetExp : BitVec 2
  /-- `RESET_SEL`, the value of `SEL` after reset. -/
  resetSel : BitVec 2
  deriving DecidableEq, Repr

/-- The width of `STATE` (R5: the one legal value). -/
def Config.stateW : Nat := 32

/-- Every parameter at the value or default R5 gives, for the given variant. `THRESH_BASE`, `INC_BASE` and
`RESET_SEED` are R5's defaults, which R5 marks as general knowledge (PRESUMED, unsafe: notes/assumptions/2.md);
`LCG_MUL` is the document's unaudited literal (UNVERIFIED, unsafe: notes/assumptions/14.md). -/
def Config.default (v : Variant) : Config where
  variant := v
  accW := 32
  threshBase := 180633600
  incBase := 128000000
  lcgMul := 110351245
  lcgAdd := 12345
  lcgCmp := 0x80000000
  tapHi := 30
  tapLo := 2
  insAgree := 0
  insDisagree := 1
  resetSeed := 0x11111111
  resetExp := 0
  resetSel := 0

/-- The variant this build has. R5 leaves it OPEN with no default, so it has no body: nothing can be proved of
its value (DESIGN CHOICE, safe: notes/assumptions/1.md). -/
opaque Config.buildVariant : Variant

/-- The configuration `State.reset` starts from: R5's values and defaults, the variant left open. -/
def Config.build : Config := Config.default Config.buildVariant

end Sys2Proof
end

