-- ==== Sys2Proof/Machine/Operands.lean ====
section
/-! DEFINITION. Arithmetic at the width `ACC_W`, the values derived from the configuration and from an operand, and
which configurations are admitted (spec/00_scope.md R5 to R8, spec/10_state.md R27, R28, spec/40_config.md). -/

namespace Sys2Proof.Machine

/-- The constraints and domains of R5 and R6. A configuration that breaks one is refused (R6, D31). -/
def validConfig (c : Config) : Bool :=
  decide (32 ≤ c.accW)
    && decide (1 ≤ c.threshBase >>> 2)
    && decide (c.threshBase + c.incBase < 2 ^ c.accW)
    && c.tapHi != c.tapLo
    && c.resetExp != 3

/-- An unsigned integer at width `ACC_W`: the result modulo `2^ACC_W` (R8). -/
def narrow (c : Config) (v : Nat) : Nat := v % 2 ^ c.accW

/-- `a +_W b` at width `ACC_W` (R8). -/
def addW (c : Config) (a b : Nat) : Nat := narrow c (a + b)

/-- `a << n` at width `ACC_W` (R8). -/
def shlW (c : Config) (a n : Nat) : Nat := narrow c (a <<< n)

/-- `THRESH_BASE >> e`, the value of `THR` at exponent `e` (R27, R90). -/
def thresholdAt (c : Config) (e : BitVec 2) : Nat := narrow c (c.threshBase >>> e.toNat)

/-- `INC_BASE >> m`, the value of `INC` at the internal source `m` (R28, R103). -/
def incrementAt (c : Config) (m : BitVec 2) : Nat := narrow c (c.incBase >>> m.toNat)

/-- The value of `INC` after reset: `INC_BASE >> RESET_SEL` when `RESET_SEL < 3`, else `INC_BASE` (R28, R45). -/
def resetIncrement (c : Config) : Nat := if c.resetSel = 3 then narrow c c.incBase else incrementAt c c.resetSel

/-- `sel & 3`: the selector is masked to its low two bits, never rejected (R69 (b), R101). -/
def maskSel (sel : Word32) : BitVec 2 := (sel &&& 3).setWidth 2

/-- The accumulator rescaled from exponent `old` to exponent `new` (R90): a left shift at width `ACC_W` when the new
exponent is smaller, a logical right shift when it is larger, unchanged when it is the same (R95). -/
def rescale (c : Config) (old new : BitVec 2) (acc : Nat) : Nat :=
  if new < old then shlW c acc (old.toNat - new.toNat)
  else if old < new then acc >>> (new.toNat - old.toNat)
  else acc

/-- The host sample rate, in samples per second, that an exponent stands for (R7). No rule of the machine reads it. -/
def tierRate (e : BitVec 2) : Nat := 44100 >>> e.toNat

end Sys2Proof.Machine
end

