-- ==== Sys2Proof/Machine/Flags.lean ====
section
/-! DEFINITION. How the flags are computed: the output bit in both variants (spec/42_lfsr.md R151, R155, R156) and the
external-clock flag (spec/10_state.md R29). -/

namespace Sys2Proof.Machine

/-- `EXT` as a function of the masked selector: true if and only if it is 3 (R29). -/
def extFlag (m : BitVec 2) : Bool := m == 3

/-- Variant A: 1 if the OLD `STATE` is greater than `LCG_CMP`, unsigned and strict, else 0 (R151, R152). -/
def levelA (c : Config) (old : Word32) : Bit := if c.lcgCmp < old then 1 else 0

/-- Variant B: the four-way insert table of R156, kept as the four cases the source asks for
(the polarity is the spec's reading, DEDUCED, unsafe: notes/assumptions/15.md). -/
def insertBit (c : Config) (hi lo : Bool) : Bit :=
  match hi, lo with
  | false, false => c.insAgree
  | false, true => c.insDisagree
  | true, false => c.insDisagree
  | true, true => c.insAgree

/-- Variant B: bit 0 of the NEW `STATE` (R155, R157). -/
def levelB (new : Word32) : Bit := new.extractLsb' 0 1

end Sys2Proof.Machine
end

