-- ==== Sys2Proof/Machine/State.lean ====
section
/-! DEFINITION. The state of the NG block: the nine registers of spec/10_state.md R20, its ports (spec/30_encoding.md
R65) and the configuration it was built with, why it can stop, and the state after reset (R45). There is no memory and
no program counter (R40, R42). -/

namespace Sys2Proof.Machine

/-- What the host puts on the input ports for one step (R65). -/
structure PortInput where
  /-- `rst`: reset. -/
  rst : Bool
  /-- `cmd_valid`: `cmd` carries a command for this step. -/
  cmdValid : Bool
  /-- `cmd`: the command word. -/
  cmd : CmdWord
  deriving DecidableEq, Repr

/-- The whole machine: R20's nine registers, then the model's own fields. -/
structure State where
  /-- `STATE`, 32 bits (R21). -/
  state : Word32
  /-- `LEVEL`, 1 bit, the output register (R23); also the `level` port (R65). -/
  level : Bit
  /-- `SYNCD`, 1 bit, true for 1 (R24). -/
  synced : Bool
  /-- `ACC`, `ACC_W` bits (R22); a natural narrowed where it is written (DESIGN CHOICE, safe: notes/assumptions/3.md). -/
  acc : Nat
  /-- `EXP`, 2 bits (R25). -/
  exp : BitVec 2
  /-- `THR`, `ACC_W` bits (R27). -/
  thr : Nat
  /-- `SEL`, 2 bits (R26). -/
  sel : BitVec 2
  /-- `INC`, `ACC_W` bits (R28). -/
  inc : Nat
  /-- `EXT`, 1 bit, true for 1 (R29). -/
  ext : Bool
  /-- The `resp` port: the response of the last step; `none` where it has none and the model gives `resp` no value (R65,
  R68; DEDUCED, safe: notes/assumptions/5.md). -/
  resp : Option Bit
  /-- What the host presents at this step (the head) and at the steps after it; at the end of the list it presents
  nothing, which is `cmd_valid = 0` (R10, R66). The model's own field (DESIGN CHOICE, safe: notes/assumptions/4.md). -/
  input : List PortInput
  /-- The build-time parameters of this instance, written by no step (R5, R43). The model's own field
  (DESIGN CHOICE, safe: notes/assumptions/1.md). -/
  config : Config
  deriving DecidableEq, Repr

/-- The reasons a step ends in a fault: none. The table of exception causes is empty and no command can fault (R170),
so this closed inductive has no constructor. -/
inductive Fault
  deriving DecidableEq, Repr

/-- The reasons the model refuses, each a statement about the model and not an event in the hardware (R174). -/
inductive Refusal where
  /-- Raised by an arm of `exec` whose instruction has no meaning yet; no arm raises it. Safe. -/
  | notModelled (mnemonic : String)
  /-- Raised by `step` when the configuration breaks a constraint of R6 (D31). Safe: the model has fewer runs. -/
  | invalidConfiguration
  /-- Raised by RESERVED7, any word with `op = 7` (R75 (a)). Safe: the model has fewer runs. -/
  | reservedOpcode
  /-- Raised by `step` and by CFG for an exponent outside 0, 1, 2 (R75 (b), R94). Safe: the model has fewer runs. -/
  | reservedExponent
  /-- Raised by TICK where its catch-up loop would be endless, `THR = 0`, which no state of an admitted configuration
  has (R27, D31; DEDUCED, notes/assumptions/9.md). Safe: the model has fewer runs. -/
  | zeroThreshold
  deriving DecidableEq, Repr

/-- What a step answers. -/
abbrev Result := Host.Outcome State Fault Refusal

/-- The state after reset of an instance with configuration `c`: the table of R45 (the spec's own values, DESIGN CHOICE,
unsafe: notes/assumptions/6.md). The response port has no value and nothing is presented. -/
def State.resetWith (c : Config) : State where
  state := c.resetSeed
  level := 0
  synced := false
  acc := 0
  exp := c.resetExp
  thr := thresholdAt c c.resetExp
  sel := c.resetSel
  inc := resetIncrement c
  ext := extFlag c.resetSel
  resp := none
  input := []
  config := c

/-- The machine right after reset, with R5's values and defaults (R45). -/
def State.reset : State := State.resetWith Config.build

/-- The `level` port: always equal to register `LEVEL` (R65). -/
def State.levelPort (s : State) : Bit := s.level

end Sys2Proof.Machine
end

