-- ==== Sys2Proof/Machine/Ops.lean ====
section
/-! DEFINITION. The named operations: one write per register (`NAME <- v` of spec/00_scope.md R9), the state update
`UPDATE()` (spec/42_lfsr.md R150 to R157), the catch-up loop of TICK (spec/41_clocking.md R110), the register changes
of CFG, SRC and SYNC, and reset (spec/70_reset_and_hazards.md R190). The block takes no exception and has no return
from one (spec/60_exceptions.md R170, R174), so there is no such operation. -/

namespace Sys2Proof.Machine

/-- `STATE <- v`. -/
def State.writeState (s : State) (v : Word32) : State := { s with state := v }

/-- `LEVEL <- b`. -/
def State.writeLevel (s : State) (b : Bit) : State := { s with level := b }

/-- `SYNCD <- b`. -/
def State.writeSynced (s : State) (b : Bool) : State := { s with synced := b }

/-- `ACC <- v`. -/
def State.writeAcc (s : State) (v : Nat) : State := { s with acc := v }

/-- `EXP <- e`. -/
def State.writeExp (s : State) (e : BitVec 2) : State := { s with exp := e }

/-- `THR <- v`. -/
def State.writeThr (s : State) (v : Nat) : State := { s with thr := v }

/-- `SEL <- m`. -/
def State.writeSel (s : State) (m : BitVec 2) : State := { s with sel := m }

/-- `INC <- v`. -/
def State.writeInc (s : State) (v : Nat) : State := { s with inc := v }

/-- `EXT <- b`. -/
def State.writeExt (s : State) (b : Bool) : State := { s with ext := b }

/-- `resp <- r`; `none` where the step has no response (R68, notes/assumptions/5.md). -/
def State.respond (s : State) (r : Option Bit) : State := { s with resp := r }

/-- What the host presents from the next step on. -/
def State.writeInput (s : State) (l : List PortInput) : State := { s with input := l }

/-- Variant A: `(STATE *_32 LCG_MUL) +_32 LCG_ADD` (R151). -/
def nextA (c : Config) (old : Word32) : Word32 := old * c.lcgMul + c.lcgAdd

/-- Variant B: the 32-bit left shift by one with the inserted bit at bit 0; the taps are read before the shift
(R155, R157). -/
def nextB (c : Config) (old : Word32) : Word32 :=
  (old <<< 1) ||| (insertBit c (old.getLsbD c.tapHi) (old.getLsbD c.tapLo)).setWidth 32

/-- The new `STATE` of one state update (R150). -/
def nextState (c : Config) (old : Word32) : Word32 :=
  match c.variant with
  | .a => nextA c old
  | .b => nextB c old

/-- The new `LEVEL` of one state update: from the old `STATE` in Variant A, from the new one in Variant B
(R151, R155, R161). -/
def nextLevel (c : Config) (old : Word32) : Bit :=
  match c.variant with
  | .a => levelA c old
  | .b => levelB (nextB c old)

/-- `UPDATE()`: one state update (R150). -/
def update (s : State) : State :=
  (s.writeState (nextState s.config s.state)).writeLevel (nextLevel s.config s.state)

/-- The `while` loop of TICK (R110), at most as many passes as the first argument: while `ACC >= THR`, subtract `THR`
and perform one update. -/
def catchUp : Nat → State → State
  | 0, s => s
  | n + 1, s => if s.thr ≤ s.acc then catchUp n (update (s.writeAcc (s.acc - s.thr))) else s

/-- TICK in internal mode and not held: add `INC` to `ACC`, then run the loop to its exit (R110). The number of passes
allowed, `ACC / THR`, is all the loop can make when `THR` is not zero (R112, R113). -/
def clockInternal (s : State) : State :=
  let added := s.writeAcc (addW s.config s.acc s.inc)
  catchUp (added.acc / added.thr) added

/-- The register writes of `CFG e` (R90), in every mode (R93; DESIGN CHOICE, unsafe: notes/assumptions/12.md). -/
def configure (e : BitVec 2) (s : State) : State :=
  ((s.writeAcc (rescale s.config s.exp e s.acc)).writeExp e).writeThr (thresholdAt s.config e)

/-- The register writes of `SRC` with masked selector `m` (R100): `INC` is not written when `m` is 3 (R102,
notes/assumptions/10.md), and `ACC` never (R104; DESIGN CHOICE, unsafe: notes/assumptions/12.md). -/
def selectSource (m : BitVec 2) (s : State) : State :=
  if m = 3 then (s.writeSel m).writeExt (extFlag m)
  else ((s.writeSel m).writeExt (extFlag m)).writeInc (incrementAt s.config m)

/-- The register writes of `SYNC a` (R130). -/
def hold (active : Bool) (s : State) : State :=
  if active then (s.writeSynced active).writeAcc 0 else s.writeSynced active

/-- A step with `rst = 1`: all nine registers at their reset values, whatever they held (R190, notes/assumptions/17.md). -/
def applyReset (s : State) : State := (State.resetWith s.config).writeInput s.input

end Sys2Proof.Machine
end

