-- ==== Sys2Proof/Machine/Clocking.lean ====
section
/-! DEFINITION. The commands that clock the generator: TICK, TRIG and SYNC (spec/41_clocking.md). -/

namespace Sys2Proof.Machine

/-- `TICK` (R110). While held or externally clocked it writes no register (R111); it always responds with `LEVEL` as it
stands at the end of the step (R114; the spec's decision, notes/assumptions/13.md). -/
def execTick (s : State) : Result :=
  if s.synced || s.ext then .next (s.respond (some s.level))
  else if s.thr = 0 then .refused .zeroThreshold
  else .next ((clockInternal s).respond (some (clockInternal s).level))

/-- `TRIG` (R120): exactly one update in external mode, held or not (R122; the spec's decision, DESIGN
CHOICE, unsafe: notes/assumptions/11.md); nothing in internal mode (R121). -/
def execTrig (s : State) : Result := .next ((if s.ext then update s else s).respond none)

/-- `SYNC a` (R130). -/
def execSync (active : Bool) (s : State) : Result := .next ((hold active s).respond none)

end Sys2Proof.Machine
end

