-- ==== Sys2Proof/Machine/Generator.lean ====
section
/-! DEFINITION. The generator's own commands SEED and LVL (spec/42_lfsr.md), and the reserved row of the opcode table
(spec/30_encoding.md R75). -/

namespace Sys2Proof.Machine

/-- `SEED v` (R140): `LEVEL` is not refreshed (R141). -/
def execSeed (v : Word32) (s : State) : Result := .next ((s.writeState v).respond none)

/-- `LVL` (R145): a pure read of `LEVEL`. -/
def execLvl (s : State) : Result := .next (s.respond (some s.level))

/-- Every word with `op = 7` is reserved and the model refuses it (R75 (a), D4). -/
def execReserved7 (_s : State) : Result := .refused .reservedOpcode

end Sys2Proof.Machine
end

