-- ==== Sys2Proof/Machine/ModeControl.lean ====
section
/-! DEFINITION. The sample-rate mode controller: CFG and SRC (spec/40_config.md). -/

namespace Sys2Proof.Machine

/-- `CFG e` (R90). The exponent 3 is reserved (R94). -/
def execCfg (e : BitVec 2) (s : State) : Result :=
  if e = 3 then .refused .reservedExponent else .next ((configure e s).respond none)

/-- `SRC sel` (R100): every 32-bit selector is legal and masked (R101). -/
def execSrc (sel : Word32) (s : State) : Result := .next ((selectSource (maskSel sel) s).respond none)

end Sys2Proof.Machine
end

