-- ==== Sys2Proof/Machine/Dispatch.lean ====
section
/-! DEFINITION. One arm per command (spec/30_encoding.md R68). -/

namespace Sys2Proof.Machine

/-- The meaning of each command. -/
def exec (i : Instr) (s : State) : Host.Outcome State Fault Refusal :=
  match i with
  | .cfg e => Sys2Proof.Machine.execCfg e s
  | .src sel => Sys2Proof.Machine.execSrc sel s
  | .tick => Sys2Proof.Machine.execTick s
  | .trig => Sys2Proof.Machine.execTrig s
  | .sync active => Sys2Proof.Machine.execSync active s
  | .seed v => Sys2Proof.Machine.execSeed v s
  | .lvl => Sys2Proof.Machine.execLvl s
  | .reserved7 => Sys2Proof.Machine.execReserved7 s

end Sys2Proof.Machine
end

