-- ==== Sys2Proof/Machine/Port.lean ====
section
/-! DEFINITION. What one step does with the ports (spec/30_encoding.md R65, R66, spec/70_reset_and_hazards.md R190):
this block fetches nothing, the host presents each command. -/

namespace Sys2Proof.Machine

/-- A word on the command port: the command it decodes to is performed, a reserved word is refused (R66, R75). -/
def runWord (w : CmdWord) (s : State) : Result :=
  match decode w with
  | .ok i => exec i s
  | .error .reservedExponent => .refused .reservedExponent

/-- One presentation on the input ports. `rst` comes before any command (R190); with `cmd_valid = 0` no register
changes, whatever is on `cmd`, and there is no response (R66). -/
def runInput (p : PortInput) (s : State) : Result :=
  if p.rst then .next (applyReset s)
  else if p.cmdValid then runWord p.cmd s
  else .next (s.respond none)

/-- One step: refuse a configuration outside R6, else take the next presentation off the list and run it; past the end
of the list the host presents nothing (R10, R66). -/
def portStep (s : State) : Result :=
  if validConfig s.config then
    match s.input with
    | [] => .next (s.respond none)
    | p :: rest => runInput p (s.writeInput rest)
  else .refused .invalidConfiguration

/-- The host presents one command word, neither reset nor idle. -/
def command (w : CmdWord) : PortInput := { rst := false, cmdValid := true, cmd := w }

/-- The host presents reset (R190); what else is on the ports is ignored. -/
def resetInput : PortInput := { rst := true, cmdValid := false, cmd := 0 }

/-- The host presents nothing (R66, R76). -/
def idleInput : PortInput := { rst := false, cmdValid := false, cmd := 0 }

/-- The state with `w` presented at the very next step, in the place of what was to be presented there. -/
def presentNext (w : CmdWord) (s : State) : State := s.writeInput (command w :: s.input.tail)

end Sys2Proof.Machine
end

