-- ==== Sys2Proof/Machine/Step.lean ====
section
/-! DEFINITION. The step (spec/00_scope.md R10, spec/30_encoding.md R66) and where it takes its next command from. -/

namespace Sys2Proof.Machine

/-- One step of the machine. -/
def step (s : State) : Host.Outcome State Fault Refusal := portStep s

/-- `s` with a table word presented on the command port at the very next step. -/
def State.withFetchWord (s : State) (nbits w : Nat) : State := presentNext (portWord nbits w) s

end Sys2Proof.Machine
end

