-- ==== Sys2Proof/Machine/Assembler.lean ====
section
/-! DEFINITION. The assembler syntax of spec/30_encoding.md R78: one command per line, a mnemonic and its argument, `;`
starting a comment. There are no labels, directives, register operands or pseudo-instructions (R79). What R78 leaves
open of the text is in notes/assumptions/8.md. -/

namespace Sys2Proof.Machine

/-- The value of a hexadecimal digit; a decimal digit is one below ten. -/
def digitValue (ch : Char) : Option Nat :=
  let n := ch.toNat
  if 48 ≤ n ∧ n ≤ 57 then some (n - 48)
  else if 97 ≤ n ∧ n ≤ 102 then some (n - 87)
  else if 65 ≤ n ∧ n ≤ 70 then some (n - 55)
  else none

/-- The number whose digits in `base` follow those already read into `value`. -/
def digitsValue (base : Nat) : Nat → List Char → Option Nat
  | value, [] => some value
  | value, ch :: rest =>
    match digitValue ch with
    | some d => if d < base then digitsValue base (value * base + d) rest else none
    | none => none

/-- An unsigned number, decimal or `0x` hexadecimal (R78). -/
def parseNumber : List Char → Option Nat
  | [] => none
  | ['0', 'x'] => none
  | '0' :: 'x' :: rest => digitsValue 16 0 rest
  | text => digitsValue 10 0 text

/-- The words of a line that blanks and tabs separate; the first argument is the word being read, reversed. -/
def tokens : List Char → List Char → List (List Char)
  | word, [] => if word = [] then [] else [word.reverse]
  | word, ch :: rest =>
    if ch = ' ' ∨ ch = '\t' then
      if word = [] then tokens [] rest else word.reverse :: tokens [] rest
    else tokens (ch :: word) rest

/-- The text of a line up to its comment. -/
def withoutComment (line : List Char) : List Char := line.takeWhile (· != ';')

/-- The command a mnemonic without an argument names. -/
def plainCommand (name : List Char) : Option Instr :=
  if name = ['T', 'I', 'C', 'K'] then some .tick
  else if name = ['T', 'R', 'I', 'G'] then some .trig
  else if name = ['L', 'V', 'L'] then some .lvl
  else none

/-- The command a mnemonic with an argument names, where the argument is one the command takes. -/
def argumentCommand (name : List Char) (n : Nat) : Option Instr :=
  if name = ['C', 'F', 'G'] then (if n < 3 then some (.cfg (BitVec.ofNat 2 n)) else none)
  else if name = ['S', 'R', 'C'] then (if n < 2 ^ 32 then some (.src (BitVec.ofNat 32 n)) else none)
  else if name = ['S', 'Y', 'N', 'C'] then (if n < 2 then some (.sync (n == 1)) else none)
  else if name = ['S', 'E', 'E', 'D'] then (if n < 2 ^ 32 then some (.seed (BitVec.ofNat 32 n)) else none)
  else none

/-- One line: no command, one command, or text the assembler does not accept (`none`). -/
def assembleLine (line : List Char) : Option (List CmdWord) :=
  match tokens [] (withoutComment line) with
  | [] => some []
  | [name] => (plainCommand name).map fun i => [encode i]
  | [name, arg] => ((parseNumber arg).bind (argumentCommand name)).map fun i => [encode i]
  | _ => none

/-- The lines of a text; the first argument is the line being read, reversed. -/
def sourceLines : List Char → List Char → List (List Char)
  | line, [] => [line.reverse]
  | line, ch :: rest => if ch = '\n' then line.reverse :: sourceLines [] rest else sourceLines (ch :: line) rest

/-- The command words of a list of lines, in order. -/
def assembleLines : List (List Char) → Option (List CmdWord)
  | [] => some []
  | line :: rest =>
    match assembleLine line, assembleLines rest with
    | some ws, some more => some (ws ++ more)
    | _, _ => none

/-- The command words a source text stands for, in the order they are presented (R40, R78). -/
def assemble (text : List Char) : Option (List CmdWord) := assembleLines (sourceLines [] text)

end Sys2Proof.Machine
end

