-- ==== Sys2Proof/Safety.lean ====
section
/-! DEFINITION. What counts as a safe run: the invariants of spec/10_state.md R35 and R36, the host's duties of
spec/60_exceptions.md R185, and the words claims about several commands are made in. -/

namespace Sys2Proof.Machine

/-- R35 (1): `THR = THRESH_BASE >> EXP` and `THR` is not zero. -/
abbrev ThresholdMatches (s : State) : Prop := s.thr = s.config.threshBase >>> s.exp.toNat ∧ s.thr ≠ 0

/-- R35 (2): `INC = INC_BASE >> SEL` whenever `SEL < 3`. -/
abbrev IncrementMatches (s : State) : Prop := s.sel ≠ 3 → s.inc = s.config.incBase >>> s.sel.toNat

/-- R35 (4): while held, the accumulator is zero. -/
abbrev HeldAtZero (s : State) : Prop := s.synced = true → s.acc = 0

/-- R35 (5), R29: `EXT = 1` if and only if `SEL = 3`. -/
abbrev ExternalMatches (s : State) : Prop := s.ext = true ↔ s.sel = 3

/-- R25: `EXP` is 0, 1 or 2. -/
abbrev TierLegal (s : State) : Prop := s.exp ≠ 3

/-- R36: `ACC` is at most `THR`, and `INC` at most `INC_BASE` whatever the clock source. -/
abbrev PhaseBounded (s : State) : Prop := s.acc ≤ s.thr ∧ s.inc ≤ s.config.incBase

/-- The invariant of every reachable state: an admitted configuration (R6) and R35, R36 together. -/
abbrev SafeState (s : State) : Prop :=
  validConfig s.config = true ∧ TierLegal s ∧ ThresholdMatches s ∧ IncrementMatches s ∧ HeldAtZero s ∧
    ExternalMatches s ∧ PhaseBounded s

/-- A presentation the host may make (R185 (a)): reset, nothing, or a word that is not reserved (R75). -/
def PortInput.admitted (p : PortInput) : Bool :=
  p.rst || !p.cmdValid ||
    match decode p.cmd with
    | .ok i => i != .reserved7
    | .error _ => false

/-- The commands of a list, one after another, up to the first that is refused. -/
def execAll : List Instr → State → Result
  | [], s => .next s
  | i :: rest, s =>
    match exec i s with
    | .next t => execAll rest t
    | .fault f => .fault f
    | .refused r => .refused r

/-- `k` steps of the machine the host runs. -/
def run (k : Nat) (s : State) : Result := Sys2Proof.core.run k s

/-- One run of TICK's loop (R110) from a state to the state at its exit: `exit` where `ACC < THR`, `pass` one round. -/
inductive LoopRun : State → State → Prop where
  | exit (s : State) : s.acc < s.thr → LoopRun s s
  | pass (s t : State) : s.thr ≤ s.acc → LoopRun (update { s with acc := s.acc - s.thr }) t → LoopRun s t

/-- The number of updates one command performs in a state (R112, R120). -/
def updatesOf (s : State) : Instr → Nat
  | .cfg _ => 0
  | .src _ => 0
  | .tick => if s.synced || s.ext then 0 else addW s.config s.acc s.inc / s.thr
  | .trig => if s.ext then 1 else 0
  | .sync _ => 0
  | .seed _ => 0
  | .lvl => 0
  | .reserved7 => 0

/-- The number of updates the commands of a list perform, run one after another. -/
def updateCount : List Instr → State → Nat
  | [], _ => 0
  | i :: rest, s =>
    updatesOf s i +
      match exec i s with
      | .next t => updateCount rest t
      | _ => 0

/-- A TICK, or an SRC that selects an internal source: the commands of R115. -/
def clocksInternally : Instr → Bool
  | .cfg _ => false
  | .src sel => maskSel sel != 3
  | .tick => true
  | .trig => false
  | .sync _ => false
  | .seed _ => false
  | .lvl => false
  | .reserved7 => false

/-- The increment in force after a command, when `inc` is in force before it and only SRC changes it (R103). -/
def incrementAfter (c : Config) (inc : Nat) : Instr → Nat
  | .cfg _ => inc
  | .src sel => if maskSel sel = 3 then inc else incrementAt c (maskSel sel)
  | .tick => inc
  | .trig => inc
  | .sync _ => inc
  | .seed _ => inc
  | .lvl => inc
  | .reserved7 => inc

/-- The sum of the increments that the TICKs of a list of commands add, when `inc` is in force at its start (R115). -/
def phaseAdded (c : Config) : Nat → List Instr → Nat
  | _, [] => 0
  | inc, i :: rest => (if i = .tick then inc else 0) + phaseAdded c (incrementAfter c inc i) rest

/-- Every command but SEED: the commands that do not write `STATE` directly (R160). -/
def keepsSeed : Instr → Bool
  | .cfg _ => true
  | .src _ => true
  | .tick => true
  | .trig => true
  | .sync _ => true
  | .seed _ => false
  | .lvl => true
  | .reserved7 => true

end Sys2Proof.Machine
end

