-- ==== Sys2Proof/Certificates/Slice0/Obligations.lean ====
section
/-! DEFINITION. The statements for the provers, in the order of OBLIGATIONS.json. A statement whose content the spec
marks as its own decision or derivation says so in its docstring. Where a command has no response, `resp := none` stands
for R68's "the model gives it no value" (notes/assumptions/5.md). -/

open Sys2Proof Sys2Proof.Machine

/-! ### Encoding -/

/-- Every well-formed instruction is what its canonical word decodes to (spec decision D2, D3, D5; R77, R78). -/
def Obligations.DecodeOfEncode : Prop :=
  ∀ i : Instr, i.wellFormed = true → decode (encode i) = .ok i

/-- The decoding procedure of R77 (spec decision D2, D3): every word is an opcode and an argument, and each opcode
decodes as the procedure says. -/
def Obligations.DecodeFollowsProcedure : Prop :=
  (∀ w : CmdWord, wordOf (opField w) (argField w) = w) ∧
  ∀ arg : Word32,
    (arg ≤ 2 → decode (wordOf 0 arg) = .ok (.cfg (arg.setWidth 2))) ∧
    (2 < arg → decode (wordOf 0 arg) = .error .reservedExponent) ∧
    decode (wordOf 1 arg) = .ok (.src arg) ∧
    decode (wordOf 2 arg) = .ok .tick ∧
    decode (wordOf 3 arg) = .ok .trig ∧
    decode (wordOf 4 arg) = .ok (.sync (arg.getLsbD 0)) ∧
    decode (wordOf 5 arg) = .ok (.seed arg) ∧
    decode (wordOf 6 arg) = .ok .lvl ∧
    decode (wordOf 7 arg) = .ok .reserved7

/-- Ignored bits make no other command: what any word decodes to is well formed, has that word's opcode, and is what
its own canonical word decodes to (R76, spec decision D4). -/
def Obligations.DecodedCommandsReencode : Prop :=
  ∀ (w : CmdWord) (i : Instr), decode w = .ok i →
    i.wellFormed = true ∧ opField (encode i) = opField w ∧ decode (encode i) = .ok i

/-- Words written out from R68 decode to the commands they stand for (spec decision D2, D3, D5). -/
def Obligations.WrittenWordsDecode : Prop :=
  decode 0x000000002 = .ok (.cfg 2) ∧ decode 0x100000005 = .ok (.src 5) ∧ decode 0x200000000 = .ok .tick ∧
  decode 0x3FFFFFFFF = .ok .trig ∧ decode 0x4FFFFFFFE = .ok (.sync false) ∧ decode 0x400000001 = .ok (.sync true) ∧
  decode 0x540000004 = .ok (.seed 0x40000004) ∧ decode 0x600000000 = .ok .lvl ∧
  decode 0x000000003 = .error .reservedExponent ∧ decode 0x700000000 = .ok .reserved7

/-- What the assembler emits is the canonical word of a command that is not reserved (R78, spec decision D27; the text
it accepts is notes/assumptions/8.md). -/
def Obligations.AssemblerEmitsCanonicalWords : Prop :=
  ∀ (text : List Char) (ws : List CmdWord) (w : CmdWord), assemble text = some ws → w ∈ ws →
    ∃ i : Instr, i.wellFormed = true ∧ i ≠ .reserved7 ∧ w = encode i

/-! ### The step and the ports -/

/-- A step on a presented command runs the decoded instruction, the presentation taken off the input (R66, spec
decision D1; the input list is notes/assumptions/4.md). -/
def Obligations.StepRunsDecodedCommand : Prop :=
  ∀ (s : State) (p : PortInput) (rest : List PortInput) (i : Instr), validConfig s.config = true →
    s.input = p :: rest → p.rst = false → p.cmdValid = true → decode p.cmd = .ok i →
    step s = exec i { s with input := rest }

/-- A table word placed for the next step is what that step runs (notes/assumptions/4.md). -/
def Obligations.PlacedWordRunsNext : Prop :=
  ∀ (s : State) (nbits w : Nat) (i : Instr), validConfig s.config = true → decodeTableWord nbits w = some i →
    step (s.withFetchWord nbits w) = exec i { s with input := s.input.tail }

/-- A step with nothing presented changes no register, whatever is on `cmd` (R66, spec decision D1), and gives no
response (notes/assumptions/5.md). -/
def Obligations.IdleStepChangesNoRegister : Prop :=
  ∀ s : State, validConfig s.config = true →
    (s.input = [] → step s = .next { s with resp := none }) ∧
    ∀ (p : PortInput) (rest : List PortInput), s.input = p :: rest → p.rst = false → p.cmdValid = false →
      step s = .next { s with input := rest, resp := none }

/-- A step with `rst = 1` loads the table of R45 whatever the registers held and whatever is on the command port
(R190, spec decision D26; values: spec decisions D6 to D9). -/
def Obligations.ResetStepLoadsResetValues : Prop :=
  ∀ (s : State) (p : PortInput) (rest : List PortInput), validConfig s.config = true →
    s.input = p :: rest → p.rst = true →
    step s = .next
      { state := s.config.resetSeed
        level := 0
        synced := false
        acc := 0
        exp := s.config.resetExp
        thr := s.config.threshBase >>> s.config.resetExp.toNat
        sel := s.config.resetSel
        inc := if s.config.resetSel = 3 then s.config.incBase else s.config.incBase >>> s.config.resetSel.toNat
        ext := decide (s.config.resetSel = 3)
        resp := none
        input := rest
        config := s.config }

/-- Reserved words have no next state, whatever their ignored bits, and neither has the reserved row itself (R75, spec
decision D4). -/
def Obligations.ReservedWordsRefused : Prop :=
  (∀ (s : State) (w : CmdWord) (rest : List PortInput), validConfig s.config = true → s.input = command w :: rest →
    (opField w = 7 → step s = .refused .reservedOpcode) ∧
    (opField w = 0 → 2 < argField w → step s = .refused .reservedExponent)) ∧
  ∀ s : State, exec .reserved7 s = .refused .reservedOpcode ∧ exec (.cfg 3) s = .refused .reservedExponent

/-- In a state that meets the invariant a presented word is refused exactly when it is reserved (R75, spec
decision D4). -/
def Obligations.OnlyReservedWordsRefused : Prop :=
  ∀ (s : State) (w : CmdWord) (rest : List PortInput), SafeState s → s.input = command w :: rest →
    ((∃ r, step s = .refused r) ↔ opField w = 7 ∨ (opField w = 0 ∧ 2 < argField w))

/-- A configuration that breaks a constraint of R6, or a domain of R5, is refused, and only such a one is refused by
that name (R6, spec decisions D10, D31). -/
def Obligations.BrokenConfigurationRefused : Prop :=
  ∀ s : State, step s = .refused .invalidConfiguration ↔
    s.config.accW < 32 ∨ s.config.threshBase >>> 2 < 1 ∨ 2 ^ s.config.accW ≤ s.config.threshBase + s.config.incBase ∨
      s.config.tapHi = s.config.tapLo ∨ s.config.resetExp = 3

/-- A run never changes the configuration and consumes one presentation a step (R43, R150; the input list is
notes/assumptions/4.md). -/
def Obligations.RunsKeepTheConfiguration : Prop :=
  ∀ (k : Nat) (s t : State), run k s = .next t → t.config = s.config ∧ t.input = s.input.drop k

/-! ### Reset and the invariant -/

/-- The reset state with R5's default parameters, and the defaults are an admitted configuration for either variant
(R45; the values are spec decisions D6 to D9 and general knowledge, notes/assumptions/2.md and 6.md). -/
def Obligations.ResetRegisters : Prop :=
  (∀ v : Variant, validConfig (Config.default v) = true) ∧
  State.reset =
    { state := 0x11111111, level := 0, synced := false, acc := 0, exp := 0, thr := 180633600, sel := 0,
      inc := 128000000, ext := false, resp := none, input := [], config := Config.default Config.buildVariant }

/-- Use before configuration is safe: right after reset TICK and TRIG are ordinary commands (R171; the numbers are the
defaults of notes/assumptions/2.md and 6.md). -/
def Obligations.UseBeforeConfigurationIsSafe : Prop :=
  exec .tick State.reset = .next { State.reset with acc := 128000000, resp := some 0 } ∧
  exec .trig State.reset = .next State.reset

/-- The invariant holds at reset. -/
def Obligations.ResetMeetsInvariant : Prop := SafeState State.reset

/-- The reset state of every admitted configuration meets the invariant (R45, derived by the spec). -/
def Obligations.EveryResetStateMeetsInvariant : Prop :=
  ∀ c : Config, validConfig c = true → SafeState (State.resetWith c)

/-- Every step keeps the invariant of R35 and R36 (derived by the spec), whatever is presented. -/
def Obligations.StepKeepsInvariant : Prop :=
  ∀ s t : State, SafeState s → step s = .next t → SafeState t

/-- From a state that meets the invariant, a run of any length over admitted presentations never stops (R170). -/
def Obligations.AdmittedRunsNeverStop : Prop :=
  ∀ (k : Nat) (s : State), SafeState s → (∀ p ∈ s.input, p.admitted = true) → ∃ t, run k s = .next t ∧ SafeState t

/-- Each of the seven commands completes in every state that meets the invariant, and none faults (R170). -/
def Obligations.CommandsAreTotal : Prop :=
  ∀ (i : Instr) (s : State), SafeState s → i.wellFormed = true → i ≠ .reserved7 → ∃ t, exec i s = .next t ∧ SafeState t

/-- In a state that meets the invariant `ACC`, `THR` and `INC` fit `ACC_W` bits and the addition in TICK does not wrap;
a TICK that clocks leaves `ACC` below `THR` (R36, derived by the spec). -/
def Obligations.RegistersFitTheirWidth : Prop :=
  ∀ s : State, SafeState s →
    s.acc < 2 ^ s.config.accW ∧ s.thr < 2 ^ s.config.accW ∧ s.inc < 2 ^ s.config.accW ∧
    s.acc + s.inc < 2 ^ s.config.accW ∧
    ∀ t, s.synced = false → s.ext = false → exec .tick s = .next t → t.acc < t.thr

/-! ### CFG and SRC -/

/-- All R90 says: encoding, pseudocode with the registers it does not write, no response, the reserved exponents, the
worked example. Its parts rest on spec decisions D5 and D21 (notes/assumptions/7.md, 12.md), the opcode and the word are
the spec's own encoding (notes/assumptions/18.md), the absent response is notes/assumptions/5.md, and the example's
numbers are general knowledge (notes/assumptions/2.md). -/
def Obligations.CfgResult : Prop :=
  (∀ (e : BitVec 2) (s : State), e ≠ 3 → validConfig s.config = true →
    encode (.cfg e) = wordOf 0 (e.setWidth 32) ∧ decode (wordOf 0 (e.setWidth 32)) = .ok (.cfg e) ∧
    exec (.cfg e) s = .next
      { s with
        acc := if e < s.exp then (s.acc <<< (s.exp.toNat - e.toNat)) % 2 ^ s.config.accW
               else if s.exp < e then s.acc >>> (e.toNat - s.exp.toNat) else s.acc
        exp := e
        thr := s.config.threshBase >>> e.toNat
        resp := none }) ∧
  (∀ arg : Word32, 2 < arg → decode (wordOf 0 arg) = .error .reservedExponent) ∧
  (∀ s : State, exec (.cfg 3) s = .refused .reservedExponent) ∧
  ∀ (v : Variant) (s : State), s.config = Config.default v → s.exp = 2 → s.acc = 30208000 →
    exec (.cfg 0) s = .next { s with acc := 120832000, exp := 0, thr := 180633600, resp := none }

/-- The rescale is exact upwards and truncates downwards, and the result is at most the new threshold (R91, R92, R36,
derived by the spec). -/
def Obligations.CfgRescaleIsExact : Prop :=
  ∀ (e : BitVec 2) (s t : State), SafeState s → exec (.cfg e) s = .next t →
    (e < s.exp → t.acc = s.acc * 2 ^ (s.exp.toNat - e.toNat)) ∧
    (s.exp < e → t.acc = s.acc / 2 ^ (e.toNat - s.exp.toNat)) ∧
    (e = s.exp → t = { s with resp := none }) ∧
    t.acc ≤ t.thr ∧ t.thr = s.config.threshBase >>> e.toNat

/-- A CFG to another tier and back restores `EXP`, `THR` and `ACC`, less the low bits a right shift dropped (R96,
derived by the spec). -/
def Obligations.CfgRoundTrip : Prop :=
  ∀ (e : BitVec 2) (s : State), SafeState s → e ≠ 3 →
    execAll [.cfg e, .cfg s.exp] s = .next
      { s with
        acc := if s.exp < e then (s.acc >>> (e.toNat - s.exp.toNat)) <<< (e.toNat - s.exp.toNat) else s.acc
        resp := none }

/-- With the default parameters `ACC` stays a multiple of `2^(11 - EXP)`, and so CFG loses no bit of it (R92, derived by
the spec; the defaults are general knowledge, notes/assumptions/2.md). -/
def Obligations.DefaultPhaseGranularity : Prop :=
  ∀ (v : Variant) (s : State), s.config = Config.default v → SafeState s → 2 ^ (11 - s.exp.toNat) ∣ s.acc →
    (∀ t, step s = .next t → 2 ^ (11 - t.exp.toNat) ∣ t.acc) ∧
    ∀ (e : BitVec 2) (t : State), s.exp < e → exec (.cfg e) s = .next t → t.acc * 2 ^ (e.toNat - s.exp.toNat) = s.acc

/-- All R100 says: encoding, pseudocode with the registers it does not write, no response, every argument legal, the
worked example. That `ACC`, and `INC` into external mode, stay is spec decisions D21 and D22 (notes/assumptions/10.md,
12.md), the opcode and the word are the spec's own encoding (notes/assumptions/18.md), the absent response is
notes/assumptions/5.md, and the example's numbers are general knowledge (notes/assumptions/2.md). -/
def Obligations.SrcResult : Prop :=
  (∀ (sel : Word32) (s : State), validConfig s.config = true →
    encode (.src sel) = wordOf 1 sel ∧ decode (wordOf 1 sel) = .ok (.src sel) ∧
    exec (.src sel) s = .next
      (if sel &&& 3 = 3 then { s with sel := 3, ext := true, resp := none }
       else { s with sel := (sel &&& 3).setWidth 2, ext := false,
                     inc := s.config.incBase >>> (sel &&& 3).toNat, resp := none })) ∧
  ∀ (v : Variant) (s : State), s.config = Config.default v →
    decode 0x100000005 = .ok (.src 5) ∧ exec (.src 5) s = exec (.src 1) s ∧
    exec (.src 5) s = .next { s with sel := 1, ext := false, inc := 64000000, resp := none }

/-- R101: the selector is masked, not validated: a selector and its low two bits are the same command, and `SEL` stores
the masked value. -/
def Obligations.SelectorIsMasked : Prop :=
  (∀ (sel : Word32) (s : State), exec (.src sel) s = exec (.src (sel &&& 3)) s) ∧
  (∀ s : State, exec (.src 4) s = exec (.src 0) s ∧ exec (.src 5) s = exec (.src 1) s ∧
    exec (.src 6) s = exec (.src 2) s ∧ exec (.src 7) s = exec (.src 3) s ∧
    exec (.src 0xFFFFFFFF) s = exec (.src 3) s) ∧
  ∀ (sel : Word32) (s : State), ∃ t, exec (.src sel) s = .next t ∧ t.sel.toNat = sel.toNat % 4

/-- The last of two SRCs wins; into external mode `INC` stays as the first left it (R105, derived by the spec). -/
def Obligations.LastSrcWins : Prop :=
  ∀ (a b : Word32) (s : State),
    (b &&& 3 ≠ 3 → execAll [.src a, .src b] s = exec (.src b) s) ∧
    (b &&& 3 = 3 → ∃ t u, exec (.src a) s = .next t ∧ exec (.src b) s = .next u ∧
      execAll [.src a, .src b] s = .next { u with inc := t.inc })

/-- CFG and SRC may come in either order (R195). -/
def Obligations.CfgAndSrcCommute : Prop :=
  ∀ (e : BitVec 2) (sel : Word32) (s : State), e ≠ 3 →
    ∃ t, execAll [.cfg e, .src sel] s = .next t ∧ execAll [.src sel, .cfg e] s = .next t

/-! ### TICK, TRIG and SYNC -/

/-- All R110 says: encoding, the no-op branch, the loop of the pseudocode run to its exit, the registers it does not
write, `LEVEL` written only by an update, the response, the worked example. The response of a no-op is spec decision D18
(notes/assumptions/13.md), the opcode and the word are the spec's own encoding (notes/assumptions/18.md), and the
example's numbers are general knowledge (notes/assumptions/2.md). -/
def Obligations.TickRunsTheLoop : Prop :=
  ((∀ arg : Word32, decode (wordOf 2 arg) = .ok .tick) ∧ encode .tick = 0x200000000) ∧
  (∀ s : State, ¬(s.synced = false ∧ s.ext = false) → exec .tick s = .next { s with resp := some s.level }) ∧
  (∀ s : State, s.synced = false → s.ext = false → s.thr ≠ 0 →
    ∃ t, LoopRun { s with acc := (s.acc + s.inc) % 2 ^ s.config.accW } t ∧
      exec .tick s = .next { t with resp := some t.level } ∧
      t = { s with acc := t.acc, state := t.state, level := t.level } ∧
      ((s.acc + s.inc) % 2 ^ s.config.accW < s.thr → t.state = s.state ∧ t.level = s.level)) ∧
  ∀ (v : Variant) (s : State), s.config = Config.default v → s.synced = false → s.ext = false →
    s.thr = 180633600 → s.inc = 128000000 → s.acc = 128000000 →
    exec .tick s = .next { update s with acc := 75366400, resp := some (update s).level }

/-- R111: while held or externally clocked, any number of TICKs changes no register. -/
def Obligations.TickIsNoOpWhenHeldOrExternal : Prop :=
  ∀ (k : Nat) (s : State), s.synced = true ∨ s.ext = true →
    ∃ t, execAll (List.replicate k .tick) s = .next t ∧ t = { s with resp := t.resp }

/-- A clocking TICK performs `floor((ACC + INC) / THR)` updates one after another and leaves
`ACC = (ACC + INC) mod THR` (R112, derived by the spec). -/
def Obligations.TickClosedForm : Prop :=
  ∀ s : State, SafeState s → s.synced = false → s.ext = false →
    exec .tick s = .next
      { update^[(s.acc + s.inc) / s.thr] s with
        acc := (s.acc + s.inc) % s.thr
        resp := some (update^[(s.acc + s.inc) / s.thr] s).level }

/-- The updates of one TICK are at most `1 + floor(INC / THR)`, and at most 3 with the default parameters (R113, R200,
derived by the spec; the defaults are general knowledge, notes/assumptions/2.md). -/
def Obligations.TickUpdatesBounded : Prop :=
  ∀ s : State, SafeState s → s.synced = false → s.ext = false →
    ∃ n, n ≤ 1 + s.inc / s.thr ∧ (∀ v, s.config = Config.default v → n ≤ 3) ∧
      ∃ t, exec .tick s = .next t ∧ t.state = (nextState s.config)^[n] s.state ∧
        s.acc + s.inc = n * s.thr + t.acc ∧ t.acc < s.thr

/-- A TICK always responds with `LEVEL` as it stands at its end, and an LVL right after gives the same bit (R114, spec
decision D18). -/
def Obligations.TickThenLvlGivesOneBit : Prop :=
  ∀ s : State, s.thr ≠ 0 → ∃ t, exec .tick s = .next t ∧ t.resp = some t.level ∧ exec .lvl t = .next t

/-- Accumulator correctness (R115, derived by the spec): over TICKs and SRCs to internal sources, whatever increments
they put in force, the updates are `floor((ACC + S) / THR)` in all and `ACC` ends at `(ACC + S) mod THR`, where `S` is
the sum of the increments. -/
def Obligations.AccumulatorCorrectness : Prop :=
  ∀ (cs : List Instr) (s : State), SafeState s → s.synced = false → s.ext = false → s.acc < s.thr →
    (∀ i ∈ cs, clocksInternally i = true) →
    updateCount cs s = (s.acc + phaseAdded s.config s.inc cs) / s.thr ∧
    ∃ t, execAll cs s = .next t ∧ t.acc = (s.acc + phaseAdded s.config s.inc cs) % s.thr ∧
      t.state = (nextState s.config)^[(s.acc + phaseAdded s.config s.inc cs) / s.thr] s.state

/-- A SEED before a run changes neither when updates happen nor how many: the runs agree on every register but `STATE`
and `LEVEL` (R116, derived by the spec). -/
def Obligations.SeedNeverMovesTheClock : Prop :=
  ∀ (cs : List Instr) (s t : State) (v : Word32), execAll cs s = .next t →
    updateCount cs { s with state := v } = updateCount cs s ∧
    ∃ u, execAll cs { s with state := v } = .next u ∧
      u = { t with state := u.state, level := u.level, resp := u.resp }

/-- All R120 says: encoding, exactly one update in external mode and no register write otherwise, held or not, no
response, the worked example. That the hold does not gate it is spec decision D19 (notes/assumptions/11.md), the
example's polarity is spec decision D23 (notes/assumptions/15.md), the opcode and the word are the spec's own encoding
(notes/assumptions/18.md), and the absent response is notes/assumptions/5.md. -/
def Obligations.TrigResult : Prop :=
  ((∀ arg : Word32, decode (wordOf 3 arg) = .ok .trig) ∧ encode .trig = 0x300000000) ∧
  (∀ s : State, s.ext = true → exec .trig s = .next { update s with resp := none } ∧
    update s = { s with state := (update s).state, level := (update s).level }) ∧
  (∀ s : State, s.ext = false → exec .trig s = .next { s with resp := none }) ∧
  ∀ s : State, s.config = Config.default .b → s.ext = true → s.state = 0x40000004 →
    exec .trig s = .next { s with state := 0x80000008, level := 0, resp := none }

/-- A trigger in internal mode is dropped for good: whatever commands follow, they leave what they would have left
without it (R121, R202). -/
def Obligations.DroppedTriggerLeavesNoTrace : Prop :=
  ∀ (i : Instr) (cs : List Instr) (s : State), s.ext = false →
    execAll (.trig :: i :: cs) s = execAll (i :: cs) s

/-- TICK and TRIG reach the same registers in either order (R124, derived by the spec); only the response differs, which
after TRIG has no value (notes/assumptions/5.md). -/
def Obligations.TickAndTrigCommute : Prop :=
  ∀ s : State, s.thr ≠ 0 →
    ∃ t u, execAll [.tick, .trig] s = .next t ∧ execAll [.trig, .tick] s = .next u ∧ t = { u with resp := none }

/-- All R130 says: encoding, pseudocode with the registers it does not write, no response, the worked example. That
SYNC 1 clears `ACC` also while held is spec decision D20 (notes/assumptions/20.md), the response of the held TICK in the
example is spec decision D18 (notes/assumptions/13.md), the opcode and the words are the spec's own encoding
(notes/assumptions/18.md), and the absent response is notes/assumptions/5.md. -/
def Obligations.SyncResult : Prop :=
  ((∀ arg : Word32, decode (wordOf 4 arg) = .ok (.sync (arg.getLsbD 0))) ∧
    encode (.sync false) = 0x400000000 ∧ encode (.sync true) = 0x400000001) ∧
  (∀ s : State, exec (.sync true) s = .next { s with synced := true, acc := 0, resp := none }) ∧
  (∀ s : State, exec (.sync false) s = .next { s with synced := false, resp := none }) ∧
  ∀ s : State, s.synced = false → s.acc = 68198400 →
    decode 0x400000001 = .ok (.sync true) ∧
    execAll [.sync true, .tick] s = .next { s with synced := true, acc := 0, resp := some s.level }

/-- A hold while held, and a release while released, change no register; a release from the hold starts at zero phase
(R131, R132, derived by the spec). -/
def Obligations.HoldAndReleaseEffects : Prop :=
  ∀ s : State, SafeState s →
    (s.synced = true → exec (.sync true) s = .next { s with resp := none } ∧
      exec (.sync false) s = .next { s with synced := false, acc := 0, resp := none }) ∧
    (s.synced = false → exec (.sync false) s = .next { s with resp := none })

/-! ### SEED, LVL and the state update -/

/-- All R140 says: encoding, `STATE` and no other register, every value accepted whatever the modes and the variant, no
response, the worked example. The opcode and the word are the spec's own encoding (decisions D2, D3;
notes/assumptions/18.md), and the absent response is notes/assumptions/5.md. -/
def Obligations.SeedResult : Prop :=
  (∀ (v : Word32) (s : State), encode (.seed v) = wordOf 5 v ∧ decode (wordOf 5 v) = .ok (.seed v) ∧
    exec (.seed v) s = .next { s with state := v, resp := none }) ∧
  decode 0x540000004 = .ok (.seed 0x40000004)

/-- After a SEED the old bit stays until the next update, which then shows what the seeded value gives in the
variant (R141). -/
def Obligations.SeedShowsAtTheNextUpdate : Prop :=
  ∀ (v : Word32) (s : State), s.ext = true →
    execAll [.seed v, .lvl] s = .next { s with state := v, resp := some s.level } ∧
    ∃ t, execAll [.seed v, .trig] s = .next t ∧
      (s.config = Config.default .a → t.level = if 0x80000000 < v.toNat then 1 else 0) ∧
      (s.config = Config.default .b → t.level = BitVec.ofBool (v.getLsbD 30 ^^ v.getLsbD 2))

/-- All R145 says: encoding, no register written, the response, and its corner cases: LVL after reset, any number of
LVLs, the `level` port, after the example of R120. The bit after reset is spec decision D7 (notes/assumptions/6.md), the
polarity of the example is spec decision D23 (notes/assumptions/15.md), and the opcode and the word are the spec's own
encoding (notes/assumptions/18.md). -/
def Obligations.LvlResult : Prop :=
  ((∀ arg : Word32, decode (wordOf 6 arg) = .ok .lvl) ∧ encode .lvl = 0x600000000) ∧
  (∀ (k : Nat) (s : State), execAll (List.replicate (k + 1) .lvl) s = .next { s with resp := some s.level } ∧
    s.levelPort = s.level) ∧
  exec .lvl State.reset = .next { State.reset with resp := some 0 } ∧
  ∀ s : State, s.config = Config.default .b → s.ext = true → s.state = 0x40000004 →
    ∃ t, execAll [.trig, .lvl] s = .next t ∧ t.resp = some 0

/-- R151: Variant A computes `LEVEL` from the old `STATE` and then `STATE` by the recurrence modulo `2^32`; no other
register is written; the source's example. -/
def Obligations.UpdateVariantA : Prop :=
  (∀ s : State, s.config.variant = .a →
    update s =
      { s with
        level := if s.config.lcgCmp.toNat < s.state.toNat then 1 else 0
        state := BitVec.ofNat 32
          ((s.state.toNat * s.config.lcgMul.toNat + s.config.lcgAdd.toNat) % 2 ^ 32) }) ∧
  (∀ s : State, s.config = Config.default .a →
    (update s).level = (if 0x80000000 < s.state.toNat then 1 else 0) ∧
    (update s).state.toNat = (s.state.toNat * 110351245 + 12345) % 2 ^ 32) ∧
  ∀ s : State, s.config = Config.default .a → s.state = 0 →
    (update s).level = 0 ∧ (update s).state = 12345

/-- In Variant A the bit is bit 31 of the old `STATE` except for the one value `0x80000000` (R152). -/
def Obligations.VariantALevelIsOldTopBit : Prop :=
  ∀ s : State, s.config = Config.default .a →
    (update s).level = if s.state = 0x80000000 then 0 else BitVec.ofBool (s.state.getLsbD 31)

/-- All R155 says: Variant B shifts left by one with the inserted bit, which is `INS_AGREE` where the taps of the old
`STATE` agree and `INS_DISAGREE` where they differ; `LEVEL` is bit 0 of the new `STATE`; no other register is written;
the worked example, whose polarity is spec decision D23 (notes/assumptions/15.md). -/
def Obligations.UpdateVariantB : Prop :=
  (∀ s : State, s.config.variant = .b →
    ∃ ins : Bit,
      (s.state.getLsbD s.config.tapHi = s.state.getLsbD s.config.tapLo → ins = s.config.insAgree) ∧
      (s.state.getLsbD s.config.tapHi ≠ s.state.getLsbD s.config.tapLo → ins = s.config.insDisagree) ∧
      update s = { s with state := (s.state <<< 1) ||| ins.setWidth 32, level := ins } ∧
      (∀ k, k < 31 → (update s).state.getLsbD (k + 1) = s.state.getLsbD k) ∧
      (update s).state.getLsbD 0 = ins.getLsbD 0) ∧
  ∀ s : State, s.config = Config.default .b → s.state = 0x40000004 →
    (update s).state = 0x80000008 ∧ (update s).level = 0

/-- The four rows of the insert table and its equality with the exclusive or of the taps (R156; the polarity is spec
decision D23). -/
def Obligations.InsertTable : Prop :=
  ∀ s : State, s.config = Config.default .b →
    (s.state &&& 0x40000004 = 0x00000000 → (update s).level = 0) ∧
    (s.state &&& 0x40000004 = 0x00000004 → (update s).level = 1) ∧
    (s.state &&& 0x40000004 = 0x40000000 → (update s).level = 1) ∧
    (s.state &&& 0x40000004 = 0x40000004 → (update s).level = 0) ∧
    (update s).level = BitVec.ofBool (s.state.getLsbD 30 ^^ s.state.getLsbD 2)

/-- Variant B locks up exactly where the low 31 bits of `STATE` are zero: then they and `LEVEL` stay zero for ever, and
otherwise they never become zero (R158, derived by the spec). -/
def Obligations.VariantBLockUp : Prop :=
  ∀ (s : State) (n : Nat), s.config = Config.default .b →
    (s.state.extractLsb' 0 31 = 0 → (update^[n + 1] s).state = 0 ∧ (update^[n + 1] s).level = 0) ∧
    (s.state.extractLsb' 0 31 ≠ 0 → (update^[n] s).state.extractLsb' 0 31 ≠ 0)

/-- Bit 31 of `STATE` is dead in Variant B: two runs that differ only in it, under any presentations, show the same
`level` and `resp` at every step and differ at most in it at the end (R159, derived by the spec). -/
def Obligations.VariantBDeadBit : Prop :=
  ∀ (k : Nat) (s t : State), s.config = Config.default .b → run k s = .next t →
    ∃ u, run k { s with state := s.state ^^^ 0x80000000 } = .next u ∧ u.level = t.level ∧ u.resp = t.resp ∧
      (u = t ∨ u = { t with state := t.state ^^^ 0x80000000 })

/-- The recurrence of the inserted bits in Variant B: after `n + k + 1` updates the bit that update `n + 1` inserted
sits at `STATE[k]`, and from the 32nd update on each bit is the exclusive or of those 31 and 3 places earlier (R159,
derived by the spec). -/
def Obligations.VariantBRecurrence : Prop :=
  ∀ (s : State) (n : Nat), s.config = Config.default .b →
    (∀ k, k ≤ 31 → (update^[n + k + 1] s).state.getLsbD k = (update^[n + 1] s).level.getLsbD 0) ∧
    (update^[n + 32] s).level = (update^[n + 1] s).level ^^^ (update^[n + 29] s).level

/-- R160: `STATE` and `LEVEL` are functions of the seed, the configuration and the number of updates, whatever mix of
commands caused the updates. -/
def Obligations.SeededRunsAreDeterministic : Prop :=
  (∀ (cs : List Instr) (s t : State), (∀ i ∈ cs, keepsSeed i = true) → execAll cs s = .next t →
    t.state = (nextState s.config)^[updateCount cs s] s.state) ∧
  ∀ (cs ds : List Instr) (s r t u : State), s.config = r.config → s.state = r.state →
    (∀ i ∈ cs, keepsSeed i = true) → (∀ i ∈ ds, keepsSeed i = true) →
    execAll cs s = .next t → execAll ds r = .next u → updateCount cs s = updateCount ds r →
    t.state = u.state ∧ (0 < updateCount cs s ∨ s.level = r.level → t.level = u.level)

/-- `LEVEL` changes only in a state update: a command that performs none keeps it, one that performs some leaves the
bit of the last (R23, R35 (3)). -/
def Obligations.LevelChangesOnlyByUpdates : Prop :=
  ∀ (i : Instr) (s t : State), exec i s = .next t →
    (updatesOf s i = 0 → t.level = s.level) ∧
    (∀ n, updatesOf s i = n + 1 → t.level = nextLevel s.config ((nextState s.config)^[n] s.state)) ∧
    (i ≠ .tick → i ≠ .trig → t.level = s.level)

/-- Construction with an explicit seed: the parameter `RESET_SEED` and a SEED right after reset leave the same registers
(R192, derived by the spec). -/
def Obligations.ConstructionWithSeed : Prop :=
  ∀ (c : Config) (v : Word32),
    exec (.seed v) (State.resetWith c) = .next { State.resetWith { c with resetSeed := v } with config := c }
end

