-- ==== Sys2Proof/Laws/Encoding.lean ====
section
/-! SUPPORT. The two fields of a command word, and what each opcode decodes to (spec/30_encoding.md R67, R77). -/

namespace Sys2Proof

/-- The opcode field of an assembled word is its opcode. -/
@[simp] theorem opField_wordOf (op : BitVec 3) (arg : Word32) : opField (wordOf op arg) = op := by
  apply BitVec.eq_of_getLsbD_eq
  intro i hi
  have h : 32 + i < 35 := by omega
  simp [opField, wordOf, hi, h]

/-- The argument field of an assembled word is its argument. -/
@[simp] theorem argField_wordOf (op : BitVec 3) (arg : Word32) : argField (wordOf op arg) = arg := by
  apply BitVec.eq_of_getLsbD_eq
  intro i hi
  have h : i < 35 := by omega
  simp [argField, wordOf, hi, h]

/-- A word is its opcode and its argument: the format has no other field (R67). -/
theorem wordOf_fields (w : CmdWord) : wordOf (opField w) (argField w) = w := by
  apply BitVec.eq_of_getLsbD_eq
  intro i hi
  by_cases h : i < 32
  · simp [opField, argField, wordOf, h, hi]
  · have h3 : i - 32 < 3 := by omega
    have hs : 32 + (i - 32) = i := by omega
    simp [opField, argField, wordOf, h, hi, h3, hs]

/-- Decoding never yields the ill-formed exponent. -/
theorem decode_wellFormed {w : CmdWord} {i : Instr} (h : decode w = .ok i) : i.wellFormed = true := by
  unfold decode at h
  split at h
  · split at h
    · cases h
    · rename_i hle
      cases h
      have hlt : (argField w).toNat ≤ 2 := by
        simpa [BitVec.lt_def] using hle
      have hne : (argField w).extractLsb' 0 2 ≠ 3 := by
        intro he
        have hn := congrArg BitVec.toNat he
        simp at hn
        omega
      simpa [Instr.wellFormed] using hne
  all_goals (cases h; rfl)

end Sys2Proof
end

