-- ==== Sys2Proof/Laws/Operands.lean ====
section
/-! SUPPORT. What an admitted configuration guarantees, and the operand functions in it (spec/00_scope.md R6,
spec/10_state.md R27, R28, spec/40_config.md R90 to R92, R101). -/

namespace Sys2Proof.Machine

/-- The constraints of R6, each by itself. -/
theorem validConfig_iff {c : Config} : validConfig c = true ↔
    32 ≤ c.accW ∧ 1 ≤ c.threshBase >>> 2 ∧ c.threshBase + c.incBase < 2 ^ c.accW ∧ c.tapHi ≠ c.tapLo ∧
      c.resetExp ≠ 3 := by
  simp [validConfig, and_assoc]

/-- A value that fits `ACC_W` bits is not changed by narrowing. -/
theorem narrow_of_lt {c : Config} {v : Nat} (h : v < 2 ^ c.accW) : narrow c v = v := Nat.mod_eq_of_lt h

theorem shiftRight_le (v n : Nat) : v >>> n ≤ v := by
  rw [Nat.shiftRight_eq_div_pow]
  exact Nat.div_le_self _ _

/-- In an admitted configuration the threshold is the plain right shift (R27). -/
theorem thresholdAt_of_valid {c : Config} (h : validConfig c = true) (e : BitVec 2) :
    thresholdAt c e = c.threshBase >>> e.toNat := by
  have hv := validConfig_iff.mp h
  have hs := shiftRight_le c.threshBase e.toNat
  exact narrow_of_lt (by omega)

/-- In an admitted configuration the increment is the plain right shift (R28). -/
theorem incrementAt_of_valid {c : Config} (h : validConfig c = true) (m : BitVec 2) :
    incrementAt c m = c.incBase >>> m.toNat := by
  have hv := validConfig_iff.mp h
  have hs := shiftRight_le c.incBase m.toNat
  exact narrow_of_lt (by omega)

/-- The reset increment in an admitted configuration (R45). -/
theorem resetIncrement_of_valid {c : Config} (h : validConfig c = true) :
    resetIncrement c = if c.resetSel = 3 then c.incBase else c.incBase >>> c.resetSel.toNat := by
  have hv := validConfig_iff.mp h
  unfold resetIncrement
  rw [incrementAt_of_valid h, narrow_of_lt (by omega)]

/-- A legal exponent is at most 2. -/
theorem toNat_le_two {e : BitVec 2} (h : e ≠ 3) : e.toNat ≤ 2 := by
  have hlt := e.isLt
  have hne : e.toNat ≠ 3 := fun he => h (BitVec.eq_of_toNat_eq (by simpa using he))
  omega

/-- The threshold is never zero at a legal exponent (R27). -/
theorem threshold_pos {c : Config} (h : validConfig c = true) {e : BitVec 2} (he : e ≠ 3) :
    0 < c.threshBase >>> e.toNat := by
  have hv := validConfig_iff.mp h
  have h2 := toNat_le_two he
  have hle : c.threshBase >>> 2 ≤ c.threshBase >>> e.toNat := by
    simp only [Nat.shiftRight_eq_div_pow]
    exact Nat.div_le_div_left (Nat.pow_le_pow_right (by decide) h2) (Nat.two_pow_pos _)
  omega

/-- The masked selector as a number (R101). -/
theorem maskSel_toNat (sel : Word32) : (maskSel sel).toNat = sel.toNat % 4 := by
  unfold maskSel
  have h : ∀ n : Nat, n &&& 3 = n % 4 := fun n => Nat.and_two_pow_sub_one_eq_mod n 2
  simp [h]

/-- The masked selector and `sel & 3` are the same number (R69 (b)). -/
theorem toNat_masked (sel : Word32) : (sel &&& 3).toNat = (maskSel sel).toNat := by
  have h : ∀ n : Nat, n &&& 3 = n % 4 := fun n => Nat.and_two_pow_sub_one_eq_mod n 2
  rw [maskSel_toNat]
  simp [h]

/-- The masked selector selects external mode exactly when `sel & 3` is 3 (R100). -/
theorem maskSel_eq_three (sel : Word32) : maskSel sel = 3 ↔ sel &&& 3 = 3 := by
  constructor <;> intro h
  · apply BitVec.eq_of_toNat_eq
    rw [toNat_masked, h]
    rfl
  · apply BitVec.eq_of_toNat_eq
    rw [← toNat_masked, h]
    rfl

/-- Masking twice is masking once (R101). -/
@[simp] theorem maskSel_masked (sel : Word32) : maskSel (sel &&& 3) = maskSel sel := by
  unfold maskSel
  rw [BitVec.and_assoc, BitVec.and_self]

/-- The rescaled accumulator, and that it stays at most the new threshold (R36, R91, R92): exact on a left shift. -/
theorem rescale_spec {c : Config} (h : validConfig c = true) {old new : BitVec 2} {acc : Nat}
    (hacc : acc ≤ c.threshBase >>> old.toNat) :
    rescale c old new acc =
        (if new < old then acc * 2 ^ (old.toNat - new.toNat)
         else if old < new then acc / 2 ^ (new.toNat - old.toNat) else acc) ∧
      rescale c old new acc ≤ c.threshBase >>> new.toNat := by
  have hv := validConfig_iff.mp h
  unfold rescale shlW
  rw [Nat.shiftRight_eq_div_pow] at hacc
  by_cases hlt : new < old
  · have hn : new.toNat < old.toNat := BitVec.lt_def.mp hlt
    have hp : 2 ^ old.toNat = 2 ^ new.toNat * 2 ^ (old.toNat - new.toNat) := by
      rw [← Nat.pow_add]; congr 1; omega
    have hle : acc * 2 ^ (old.toNat - new.toNat) ≤ c.threshBase / 2 ^ new.toNat := by
      rw [hp, ← Nat.div_div_eq_div_mul] at hacc
      exact (Nat.mul_le_mul_right _ hacc).trans (Nat.div_mul_le_self _ _)
    have hb : c.threshBase / 2 ^ new.toNat ≤ c.threshBase := Nat.div_le_self _ _
    rw [Nat.shiftLeft_eq, narrow_of_lt (by omega)]
    simp only [hlt, if_true, Nat.shiftRight_eq_div_pow]
    exact ⟨trivial, hle⟩
  · by_cases hgt : old < new
    · have hn : old.toNat < new.toNat := BitVec.lt_def.mp hgt
      have hp : 2 ^ new.toNat = 2 ^ old.toNat * 2 ^ (new.toNat - old.toNat) := by
        rw [← Nat.pow_add]; congr 1; omega
      simp only [hlt, hgt, if_true, if_false, Nat.shiftRight_eq_div_pow]
      refine ⟨trivial, ?_⟩
      rw [hp, ← Nat.div_div_eq_div_mul]
      exact Nat.div_le_div_right hacc
    · have he : old = new := by
        apply BitVec.eq_of_toNat_eq
        have h1 := mt BitVec.lt_def.mpr hlt
        have h2 := mt BitVec.lt_def.mpr hgt
        omega
      subst he
      simpa [Nat.shiftRight_eq_div_pow] using hacc

end Sys2Proof.Machine
end

