-- ==== Sys2Proof/Laws/State.lean ====
section
/-! SUPPORT. One lemma per field per register write, and the fields of the two state updates built from them. -/

namespace Sys2Proof.Machine

variable (s : State)

@[simp] theorem writeState_state (v : Word32) : (s.writeState v).state = v := rfl
@[simp] theorem writeState_level (v : Word32) : (s.writeState v).level = s.level := rfl
@[simp] theorem writeState_synced (v : Word32) : (s.writeState v).synced = s.synced := rfl
@[simp] theorem writeState_acc (v : Word32) : (s.writeState v).acc = s.acc := rfl
@[simp] theorem writeState_exp (v : Word32) : (s.writeState v).exp = s.exp := rfl
@[simp] theorem writeState_thr (v : Word32) : (s.writeState v).thr = s.thr := rfl
@[simp] theorem writeState_sel (v : Word32) : (s.writeState v).sel = s.sel := rfl
@[simp] theorem writeState_inc (v : Word32) : (s.writeState v).inc = s.inc := rfl
@[simp] theorem writeState_ext (v : Word32) : (s.writeState v).ext = s.ext := rfl
@[simp] theorem writeState_resp (v : Word32) : (s.writeState v).resp = s.resp := rfl
@[simp] theorem writeState_input (v : Word32) : (s.writeState v).input = s.input := rfl
@[simp] theorem writeState_config (v : Word32) : (s.writeState v).config = s.config := rfl

@[simp] theorem writeLevel_state (b : Bit) : (s.writeLevel b).state = s.state := rfl
@[simp] theorem writeLevel_level (b : Bit) : (s.writeLevel b).level = b := rfl
@[simp] theorem writeLevel_synced (b : Bit) : (s.writeLevel b).synced = s.synced := rfl
@[simp] theorem writeLevel_acc (b : Bit) : (s.writeLevel b).acc = s.acc := rfl
@[simp] theorem writeLevel_exp (b : Bit) : (s.writeLevel b).exp = s.exp := rfl
@[simp] theorem writeLevel_thr (b : Bit) : (s.writeLevel b).thr = s.thr := rfl
@[simp] theorem writeLevel_sel (b : Bit) : (s.writeLevel b).sel = s.sel := rfl
@[simp] theorem writeLevel_inc (b : Bit) : (s.writeLevel b).inc = s.inc := rfl
@[simp] theorem writeLevel_ext (b : Bit) : (s.writeLevel b).ext = s.ext := rfl
@[simp] theorem writeLevel_resp (b : Bit) : (s.writeLevel b).resp = s.resp := rfl
@[simp] theorem writeLevel_input (b : Bit) : (s.writeLevel b).input = s.input := rfl
@[simp] theorem writeLevel_config (b : Bit) : (s.writeLevel b).config = s.config := rfl

@[simp] theorem writeSynced_state (b : Bool) : (s.writeSynced b).state = s.state := rfl
@[simp] theorem writeSynced_level (b : Bool) : (s.writeSynced b).level = s.level := rfl
@[simp] theorem writeSynced_synced (b : Bool) : (s.writeSynced b).synced = b := rfl
@[simp] theorem writeSynced_acc (b : Bool) : (s.writeSynced b).acc = s.acc := rfl
@[simp] theorem writeSynced_exp (b : Bool) : (s.writeSynced b).exp = s.exp := rfl
@[simp] theorem writeSynced_thr (b : Bool) : (s.writeSynced b).thr = s.thr := rfl
@[simp] theorem writeSynced_sel (b : Bool) : (s.writeSynced b).sel = s.sel := rfl
@[simp] theorem writeSynced_inc (b : Bool) : (s.writeSynced b).inc = s.inc := rfl
@[simp] theorem writeSynced_ext (b : Bool) : (s.writeSynced b).ext = s.ext := rfl
@[simp] theorem writeSynced_resp (b : Bool) : (s.writeSynced b).resp = s.resp := rfl
@[simp] theorem writeSynced_input (b : Bool) : (s.writeSynced b).input = s.input := rfl
@[simp] theorem writeSynced_config (b : Bool) : (s.writeSynced b).config = s.config := rfl

@[simp] theorem writeAcc_state (v : Nat) : (s.writeAcc v).state = s.state := rfl
@[simp] theorem writeAcc_level (v : Nat) : (s.writeAcc v).level = s.level := rfl
@[simp] theorem writeAcc_synced (v : Nat) : (s.writeAcc v).synced = s.synced := rfl
@[simp] theorem writeAcc_acc (v : Nat) : (s.writeAcc v).acc = v := rfl
@[simp] theorem writeAcc_exp (v : Nat) : (s.writeAcc v).exp = s.exp := rfl
@[simp] theorem writeAcc_thr (v : Nat) : (s.writeAcc v).thr = s.thr := rfl
@[simp] theorem writeAcc_sel (v : Nat) : (s.writeAcc v).sel = s.sel := rfl
@[simp] theorem writeAcc_inc (v : Nat) : (s.writeAcc v).inc = s.inc := rfl
@[simp] theorem writeAcc_ext (v : Nat) : (s.writeAcc v).ext = s.ext := rfl
@[simp] theorem writeAcc_resp (v : Nat) : (s.writeAcc v).resp = s.resp := rfl
@[simp] theorem writeAcc_input (v : Nat) : (s.writeAcc v).input = s.input := rfl
@[simp] theorem writeAcc_config (v : Nat) : (s.writeAcc v).config = s.config := rfl

@[simp] theorem writeExp_state (e : BitVec 2) : (s.writeExp e).state = s.state := rfl
@[simp] theorem writeExp_level (e : BitVec 2) : (s.writeExp e).level = s.level := rfl
@[simp] theorem writeExp_synced (e : BitVec 2) : (s.writeExp e).synced = s.synced := rfl
@[simp] theorem writeExp_acc (e : BitVec 2) : (s.writeExp e).acc = s.acc := rfl
@[simp] theorem writeExp_exp (e : BitVec 2) : (s.writeExp e).exp = e := rfl
@[simp] theorem writeExp_thr (e : BitVec 2) : (s.writeExp e).thr = s.thr := rfl
@[simp] theorem writeExp_sel (e : BitVec 2) : (s.writeExp e).sel = s.sel := rfl
@[simp] theorem writeExp_inc (e : BitVec 2) : (s.writeExp e).inc = s.inc := rfl
@[simp] theorem writeExp_ext (e : BitVec 2) : (s.writeExp e).ext = s.ext := rfl
@[simp] theorem writeExp_resp (e : BitVec 2) : (s.writeExp e).resp = s.resp := rfl
@[simp] theorem writeExp_input (e : BitVec 2) : (s.writeExp e).input = s.input := rfl
@[simp] theorem writeExp_config (e : BitVec 2) : (s.writeExp e).config = s.config := rfl

@[simp] theorem writeThr_state (v : Nat) : (s.writeThr v).state = s.state := rfl
@[simp] theorem writeThr_level (v : Nat) : (s.writeThr v).level = s.level := rfl
@[simp] theorem writeThr_synced (v : Nat) : (s.writeThr v).synced = s.synced := rfl
@[simp] theorem writeThr_acc (v : Nat) : (s.writeThr v).acc = s.acc := rfl
@[simp] theorem writeThr_exp (v : Nat) : (s.writeThr v).exp = s.exp := rfl
@[simp] theorem writeThr_thr (v : Nat) : (s.writeThr v).thr = v := rfl
@[simp] theorem writeThr_sel (v : Nat) : (s.writeThr v).sel = s.sel := rfl
@[simp] theorem writeThr_inc (v : Nat) : (s.writeThr v).inc = s.inc := rfl
@[simp] theorem writeThr_ext (v : Nat) : (s.writeThr v).ext = s.ext := rfl
@[simp] theorem writeThr_resp (v : Nat) : (s.writeThr v).resp = s.resp := rfl
@[simp] theorem writeThr_input (v : Nat) : (s.writeThr v).input = s.input := rfl
@[simp] theorem writeThr_config (v : Nat) : (s.writeThr v).config = s.config := rfl

@[simp] theorem writeSel_state (m : BitVec 2) : (s.writeSel m).state = s.state := rfl
@[simp] theorem writeSel_level (m : BitVec 2) : (s.writeSel m).level = s.level := rfl
@[simp] theorem writeSel_synced (m : BitVec 2) : (s.writeSel m).synced = s.synced := rfl
@[simp] theorem writeSel_acc (m : BitVec 2) : (s.writeSel m).acc = s.acc := rfl
@[simp] theorem writeSel_exp (m : BitVec 2) : (s.writeSel m).exp = s.exp := rfl
@[simp] theorem writeSel_thr (m : BitVec 2) : (s.writeSel m).thr = s.thr := rfl
@[simp] theorem writeSel_sel (m : BitVec 2) : (s.writeSel m).sel = m := rfl
@[simp] theorem writeSel_inc (m : BitVec 2) : (s.writeSel m).inc = s.inc := rfl
@[simp] theorem writeSel_ext (m : BitVec 2) : (s.writeSel m).ext = s.ext := rfl
@[simp] theorem writeSel_resp (m : BitVec 2) : (s.writeSel m).resp = s.resp := rfl
@[simp] theorem writeSel_input (m : BitVec 2) : (s.writeSel m).input = s.input := rfl
@[simp] theorem writeSel_config (m : BitVec 2) : (s.writeSel m).config = s.config := rfl

@[simp] theorem writeInc_state (v : Nat) : (s.writeInc v).state = s.state := rfl
@[simp] theorem writeInc_level (v : Nat) : (s.writeInc v).level = s.level := rfl
@[simp] theorem writeInc_synced (v : Nat) : (s.writeInc v).synced = s.synced := rfl
@[simp] theorem writeInc_acc (v : Nat) : (s.writeInc v).acc = s.acc := rfl
@[simp] theorem writeInc_exp (v : Nat) : (s.writeInc v).exp = s.exp := rfl
@[simp] theorem writeInc_thr (v : Nat) : (s.writeInc v).thr = s.thr := rfl
@[simp] theorem writeInc_sel (v : Nat) : (s.writeInc v).sel = s.sel := rfl
@[simp] theorem writeInc_inc (v : Nat) : (s.writeInc v).inc = v := rfl
@[simp] theorem writeInc_ext (v : Nat) : (s.writeInc v).ext = s.ext := rfl
@[simp] theorem writeInc_resp (v : Nat) : (s.writeInc v).resp = s.resp := rfl
@[simp] theorem writeInc_input (v : Nat) : (s.writeInc v).input = s.input := rfl
@[simp] theorem writeInc_config (v : Nat) : (s.writeInc v).config = s.config := rfl

@[simp] theorem writeExt_state (b : Bool) : (s.writeExt b).state = s.state := rfl
@[simp] theorem writeExt_level (b : Bool) : (s.writeExt b).level = s.level := rfl
@[simp] theorem writeExt_synced (b : Bool) : (s.writeExt b).synced = s.synced := rfl
@[simp] theorem writeExt_acc (b : Bool) : (s.writeExt b).acc = s.acc := rfl
@[simp] theorem writeExt_exp (b : Bool) : (s.writeExt b).exp = s.exp := rfl
@[simp] theorem writeExt_thr (b : Bool) : (s.writeExt b).thr = s.thr := rfl
@[simp] theorem writeExt_sel (b : Bool) : (s.writeExt b).sel = s.sel := rfl
@[simp] theorem writeExt_inc (b : Bool) : (s.writeExt b).inc = s.inc := rfl
@[simp] theorem writeExt_ext (b : Bool) : (s.writeExt b).ext = b := rfl
@[simp] theorem writeExt_resp (b : Bool) : (s.writeExt b).resp = s.resp := rfl
@[simp] theorem writeExt_input (b : Bool) : (s.writeExt b).input = s.input := rfl
@[simp] theorem writeExt_config (b : Bool) : (s.writeExt b).config = s.config := rfl

@[simp] theorem respond_state (r : Option Bit) : (s.respond r).state = s.state := rfl
@[simp] theorem respond_level (r : Option Bit) : (s.respond r).level = s.level := rfl
@[simp] theorem respond_synced (r : Option Bit) : (s.respond r).synced = s.synced := rfl
@[simp] theorem respond_acc (r : Option Bit) : (s.respond r).acc = s.acc := rfl
@[simp] theorem respond_exp (r : Option Bit) : (s.respond r).exp = s.exp := rfl
@[simp] theorem respond_thr (r : Option Bit) : (s.respond r).thr = s.thr := rfl
@[simp] theorem respond_sel (r : Option Bit) : (s.respond r).sel = s.sel := rfl
@[simp] theorem respond_inc (r : Option Bit) : (s.respond r).inc = s.inc := rfl
@[simp] theorem respond_ext (r : Option Bit) : (s.respond r).ext = s.ext := rfl
@[simp] theorem respond_resp (r : Option Bit) : (s.respond r).resp = r := rfl
@[simp] theorem respond_input (r : Option Bit) : (s.respond r).input = s.input := rfl
@[simp] theorem respond_config (r : Option Bit) : (s.respond r).config = s.config := rfl

@[simp] theorem writeInput_state (l : List PortInput) : (s.writeInput l).state = s.state := rfl
@[simp] theorem writeInput_level (l : List PortInput) : (s.writeInput l).level = s.level := rfl
@[simp] theorem writeInput_synced (l : List PortInput) : (s.writeInput l).synced = s.synced := rfl
@[simp] theorem writeInput_acc (l : List PortInput) : (s.writeInput l).acc = s.acc := rfl
@[simp] theorem writeInput_exp (l : List PortInput) : (s.writeInput l).exp = s.exp := rfl
@[simp] theorem writeInput_thr (l : List PortInput) : (s.writeInput l).thr = s.thr := rfl
@[simp] theorem writeInput_sel (l : List PortInput) : (s.writeInput l).sel = s.sel := rfl
@[simp] theorem writeInput_inc (l : List PortInput) : (s.writeInput l).inc = s.inc := rfl
@[simp] theorem writeInput_ext (l : List PortInput) : (s.writeInput l).ext = s.ext := rfl
@[simp] theorem writeInput_resp (l : List PortInput) : (s.writeInput l).resp = s.resp := rfl
@[simp] theorem writeInput_input (l : List PortInput) : (s.writeInput l).input = l := rfl
@[simp] theorem writeInput_config (l : List PortInput) : (s.writeInput l).config = s.config := rfl

@[simp] theorem update_state : (update s).state = nextState s.config s.state := rfl
@[simp] theorem update_level : (update s).level = nextLevel s.config s.state := rfl
@[simp] theorem update_synced : (update s).synced = s.synced := rfl
@[simp] theorem update_acc : (update s).acc = s.acc := rfl
@[simp] theorem update_exp : (update s).exp = s.exp := rfl
@[simp] theorem update_thr : (update s).thr = s.thr := rfl
@[simp] theorem update_sel : (update s).sel = s.sel := rfl
@[simp] theorem update_inc : (update s).inc = s.inc := rfl
@[simp] theorem update_ext : (update s).ext = s.ext := rfl
@[simp] theorem update_resp : (update s).resp = s.resp := rfl
@[simp] theorem update_input : (update s).input = s.input := rfl
@[simp] theorem update_config : (update s).config = s.config := rfl

@[simp] theorem configure_state (e : BitVec 2) : (configure e s).state = s.state := rfl
@[simp] theorem configure_level (e : BitVec 2) : (configure e s).level = s.level := rfl
@[simp] theorem configure_synced (e : BitVec 2) : (configure e s).synced = s.synced := rfl
@[simp] theorem configure_acc (e : BitVec 2) : (configure e s).acc = rescale s.config s.exp e s.acc := rfl
@[simp] theorem configure_exp (e : BitVec 2) : (configure e s).exp = e := rfl
@[simp] theorem configure_thr (e : BitVec 2) : (configure e s).thr = thresholdAt s.config e := rfl
@[simp] theorem configure_sel (e : BitVec 2) : (configure e s).sel = s.sel := rfl
@[simp] theorem configure_inc (e : BitVec 2) : (configure e s).inc = s.inc := rfl
@[simp] theorem configure_ext (e : BitVec 2) : (configure e s).ext = s.ext := rfl
@[simp] theorem configure_resp (e : BitVec 2) : (configure e s).resp = s.resp := rfl
@[simp] theorem configure_input (e : BitVec 2) : (configure e s).input = s.input := rfl
@[simp] theorem configure_config (e : BitVec 2) : (configure e s).config = s.config := rfl

@[simp] theorem applyReset_state : (applyReset s).state = (State.resetWith s.config).state := rfl
@[simp] theorem applyReset_level : (applyReset s).level = (State.resetWith s.config).level := rfl
@[simp] theorem applyReset_synced : (applyReset s).synced = (State.resetWith s.config).synced := rfl
@[simp] theorem applyReset_acc : (applyReset s).acc = (State.resetWith s.config).acc := rfl
@[simp] theorem applyReset_exp : (applyReset s).exp = (State.resetWith s.config).exp := rfl
@[simp] theorem applyReset_thr : (applyReset s).thr = (State.resetWith s.config).thr := rfl
@[simp] theorem applyReset_sel : (applyReset s).sel = (State.resetWith s.config).sel := rfl
@[simp] theorem applyReset_inc : (applyReset s).inc = (State.resetWith s.config).inc := rfl
@[simp] theorem applyReset_ext : (applyReset s).ext = (State.resetWith s.config).ext := rfl
@[simp] theorem applyReset_resp : (applyReset s).resp = (State.resetWith s.config).resp := rfl
@[simp] theorem applyReset_input : (applyReset s).input = s.input := rfl
@[simp] theorem applyReset_config : (applyReset s).config = s.config := rfl

end Sys2Proof.Machine
end

