-- ==== Sys2Proof/Laws/Ops.lean ====
section
/-! SUPPORT. One lemma per shared operation saying all it does (spec/41_clocking.md R110 to R113, R130,
spec/40_config.md R100, spec/70_reset_and_hazards.md R190). -/

namespace Sys2Proof.Machine

/-- `UPDATE()` commutes with a write of `ACC`: it neither reads nor writes it (R150). -/
theorem update_writeAcc (s : State) (v : Nat) : update (s.writeAcc v) = (update s).writeAcc v := rfl

theorem iterate_update_writeAcc (n : Nat) (s : State) (v : Nat) :
    update^[n] (s.writeAcc v) = (update^[n] s).writeAcc v := by
  induction n generalizing s with
  | zero => rfl
  | succ n ih => rw [Function.iterate_succ_apply, update_writeAcc, ih, ← Function.iterate_succ_apply]

/-- Any number of updates writes `STATE` and `LEVEL` only (R150). -/
theorem iterate_update_frame (n : Nat) (s : State) :
    update^[n] s = { s with state := (update^[n] s).state, level := (update^[n] s).level } := by
  induction n generalizing s with
  | zero => rfl
  | succ n ih =>
    rw [Function.iterate_succ_apply]
    exact (ih (update s)).trans rfl

/-- `STATE` after a number of updates depends on `STATE` and the configuration only (R160). -/
theorem iterate_update_state (n : Nat) (s : State) : (update^[n] s).state = (nextState s.config)^[n] s.state := by
  induction n generalizing s with
  | zero => rfl
  | succ n ih => rw [Function.iterate_succ_apply, ih, update_config, update_state, ← Function.iterate_succ_apply]

/-- `LEVEL` after at least one update is what the last update computed (R23). -/
theorem iterate_update_level (n : Nat) (s : State) :
    (update^[n + 1] s).level = nextLevel s.config ((nextState s.config)^[n] s.state) := by
  rw [Function.iterate_succ_apply', update_level, iterate_update_state]
  rw [iterate_update_frame n s]

/-- The catch-up loop, given the passes it can make: `ACC / THR` updates, and `ACC mod THR` left (R112). -/
theorem catchUp_spec (n : Nat) (s : State) (hpos : 0 < s.thr) (hn : n = s.acc / s.thr) :
    catchUp n s = (update^[n] s).writeAcc (s.acc % s.thr) := by
  induction n generalizing s with
  | zero =>
    have hlt : s.acc < s.thr := (Nat.div_eq_zero_iff_lt hpos).mp hn.symm
    show s = s.writeAcc (s.acc % s.thr)
    rw [Nat.mod_eq_of_lt hlt]
    rfl
  | succ n ih =>
    have hle : s.thr ≤ s.acc := by
      by_contra hlt
      rw [Nat.div_eq_of_lt (not_le.mp hlt)] at hn
      omega
    have hd : n = (s.acc - s.thr) / s.thr := by
      rw [Nat.div_eq_sub_div hpos hle] at hn
      omega
    rw [catchUp, if_pos hle]
    rw [ih (update (s.writeAcc (s.acc - s.thr))) (by simpa using hpos) (by simpa using hd)]
    rw [update_writeAcc, iterate_update_writeAcc, Function.iterate_succ_apply]
    simp only [writeAcc_acc, writeAcc_thr, update_thr, ← Nat.mod_eq_sub_mod hle]
    rfl

/-- TICK's internal clocking in closed form (R112). -/
theorem clockInternal_spec (s : State) (hpos : 0 < s.thr) :
    clockInternal s =
      (update^[addW s.config s.acc s.inc / s.thr] s).writeAcc (addW s.config s.acc s.inc % s.thr) := by
  unfold clockInternal
  rw [catchUp_spec _ (s.writeAcc (addW s.config s.acc s.inc)) hpos rfl, iterate_update_writeAcc]
  rfl

/-- SRC's writes, case by case (R102, R103). -/
theorem selectSource_spec (m : BitVec 2) (s : State) :
    selectSource m s =
      if m = 3 then { s with sel := 3, ext := true }
      else { s with sel := m, ext := false, inc := incrementAt s.config m } := by
  unfold selectSource extFlag
  split
  · rename_i h
    subst h
    rfl
  · rename_i h
    simp only [State.writeSel, State.writeExt, State.writeInc, beq_eq_false_iff_ne.mpr h]

/-- SYNC's writes, case by case (R130). -/
theorem hold_spec (active : Bool) (s : State) :
    hold active s = if active then { s with synced := true, acc := 0 } else { s with synced := false } := by
  cases active <;> rfl

/-- Reset leaves the table of R45 and touches neither the configuration nor what the host presents (R190). -/
theorem applyReset_spec (s : State) : applyReset s = { State.resetWith s.config with input := s.input } := rfl

end Sys2Proof.Machine
end

