-- ==== Sys2Proof/Laws/PerInstr.lean ====
section
/-! SUPPORT. Facts about every instruction as syntax, one lemma per constructor: the two fields of its canonical word
(spec/30_encoding.md R67, R78). -/

namespace Sys2Proof.Laws.EncodeFields

/-- The canonical word of an instruction carries its opcode and its argument, and nothing else. -/
def Statement (i : Instr) : Prop := opField (encode i) = i.opcode ∧ argField (encode i) = i.argument

theorem cfg (e : BitVec 2) : Statement (.cfg e) := ⟨opField_wordOf _ _, argField_wordOf _ _⟩

theorem src (sel : Word32) : Statement (.src sel) := ⟨opField_wordOf _ _, argField_wordOf _ _⟩

theorem tick : Statement .tick := ⟨opField_wordOf _ _, argField_wordOf _ _⟩

theorem trig : Statement .trig := ⟨opField_wordOf _ _, argField_wordOf _ _⟩

theorem sync (active : Bool) : Statement (.sync active) := ⟨opField_wordOf _ _, argField_wordOf _ _⟩

theorem seed (v : Word32) : Statement (.seed v) := ⟨opField_wordOf _ _, argField_wordOf _ _⟩

theorem lvl : Statement .lvl := ⟨opField_wordOf _ _, argField_wordOf _ _⟩

theorem reserved7 : Statement .reserved7 := ⟨opField_wordOf _ _, argField_wordOf _ _⟩

end Sys2Proof.Laws.EncodeFields
end

