-- ==== Sys2Proof/Laws/Step.lean ====
section
/-! SUPPORT. What a command and a step can answer, said once: later proofs cite these instead of unfolding `exec`,
`runInput` and `step` (spec/30_encoding.md R66). -/

namespace Sys2Proof.Machine

theorem next_inj {s t : State} (h : (Host.Outcome.next s : Result) = .next t) : s = t := by
  cases h
  rfl

/-- Everything a command that answers a next state can have done. -/
theorem exec_next_cases {i : Instr} {s t : State} (h : exec i s = .next t) :
    (∃ e, i = .cfg e ∧ e ≠ 3 ∧ t = (configure e s).respond none) ∨
    (∃ sel, i = .src sel ∧ t = (selectSource (maskSel sel) s).respond none) ∨
    (i = .tick ∧ (s.synced || s.ext) = true ∧ t = s.respond (some s.level)) ∨
    (i = .tick ∧ (s.synced || s.ext) = false ∧ s.thr ≠ 0 ∧
      t = (clockInternal s).respond (some (clockInternal s).level)) ∨
    (i = .trig ∧ s.ext = true ∧ t = (update s).respond none) ∨
    (i = .trig ∧ s.ext = false ∧ t = s.respond none) ∨
    (∃ active, i = .sync active ∧ t = (hold active s).respond none) ∨
    (∃ v, i = .seed v ∧ t = (s.writeState v).respond none) ∨
    (i = .lvl ∧ t = s.respond (some s.level)) := by
  cases i with
  | cfg e =>
    simp only [exec, execCfg] at h
    split at h
    · cases h
    · rename_i he
      exact .inl ⟨e, rfl, he, (next_inj h).symm⟩
  | src sel => exact .inr (.inl ⟨sel, rfl, (next_inj h).symm⟩)
  | tick =>
    simp only [exec, execTick] at h
    split at h
    · rename_i hh
      exact .inr (.inr (.inl ⟨rfl, hh, (next_inj h).symm⟩))
    · rename_i hh
      split at h
      · cases h
      · rename_i hz
        exact .inr (.inr (.inr (.inl ⟨rfl, by simpa using hh, hz, (next_inj h).symm⟩)))
  | trig =>
    simp only [exec, execTrig] at h
    have ht := (next_inj h).symm
    cases hx : s.ext with
    | true => simp only [hx, if_true] at ht; simp [ht]
    | false => simp only [hx] at ht; simp [ht]
  | sync active => exact .inr (.inr (.inr (.inr (.inr (.inr (.inl ⟨active, rfl, (next_inj h).symm⟩))))))
  | seed v => exact .inr (.inr (.inr (.inr (.inr (.inr (.inr (.inl ⟨v, rfl, (next_inj h).symm⟩)))))))
  | lvl => exact .inr (.inr (.inr (.inr (.inr (.inr (.inr (.inr ⟨rfl, (next_inj h).symm⟩)))))))
  | reserved7 => cases h

/-- Everything a step that answers a next state can have done. -/
theorem step_next_cases {s t : State} (h : step s = .next t) :
    validConfig s.config = true ∧
    ((s.input = [] ∧ t = s.respond none) ∨
      ∃ p rest, s.input = p :: rest ∧
        ((p.rst = true ∧ t = applyReset (s.writeInput rest)) ∨
         (p.rst = false ∧ p.cmdValid = false ∧ t = (s.writeInput rest).respond none) ∨
         (p.rst = false ∧ p.cmdValid = true ∧
            ∃ i, decode p.cmd = .ok i ∧ exec i (s.writeInput rest) = .next t))) := by
  unfold step portStep at h
  split at h
  · rename_i hv
    refine ⟨hv, ?_⟩
    split at h
    · rename_i hi
      exact .inl ⟨hi, (next_inj h).symm⟩
    · rename_i p rest hi
      refine .inr ⟨p, rest, hi, ?_⟩
      unfold runInput at h
      split at h
      · rename_i hr
        exact .inl ⟨hr, (next_inj h).symm⟩
      · rename_i hr
        have hr' : p.rst = false := by simpa using hr
        split at h
        · rename_i hc
          unfold runWord at h
          split at h
          · rename_i i hd
            exact .inr (.inr ⟨hr', hc, i, hd, h⟩)
          · cases h
        · rename_i hc
          exact .inr (.inl ⟨hr', by simpa using hc, (next_inj h).symm⟩)
  · cases h

/-- No command writes the configuration or takes anything off the input. -/
theorem exec_keeps_model_fields {i : Instr} {s t : State} (h : exec i s = .next t) :
    t.config = s.config ∧ t.input = s.input := by
  have hk : ∀ n : Nat, (update^[n] s).config = s.config ∧ (update^[n] s).input = s.input := fun n => by
    rw [iterate_update_frame n s]
    exact ⟨rfl, rfl⟩
  obtain ⟨e, -, -, rfl⟩ | ⟨sel, -, rfl⟩ | ⟨-, -, rfl⟩ | ⟨-, -, hz, rfl⟩ | ⟨-, -, rfl⟩ | ⟨-, -, rfl⟩ |
    ⟨active, -, rfl⟩ | ⟨v, -, rfl⟩ | ⟨-, rfl⟩ := exec_next_cases h
  · exact ⟨rfl, rfl⟩
  · rw [selectSource_spec]
    split <;> exact ⟨rfl, rfl⟩
  · exact ⟨rfl, rfl⟩
  · rw [clockInternal_spec s (Nat.pos_of_ne_zero hz)]
    exact hk _
  · exact ⟨rfl, rfl⟩
  · exact ⟨rfl, rfl⟩
  · rw [hold_spec]
    split <;> exact ⟨rfl, rfl⟩
  · exact ⟨rfl, rfl⟩
  · exact ⟨rfl, rfl⟩

end Sys2Proof.Machine
end

