-- ==== Sys2Proof/Laws/Run.lean ====
section
/-! SUPPORT. Runs of several steps and of several commands, one step at a time (spec/20_memory.md R55). -/

namespace Sys2Proof.Machine

@[simp] theorem run_zero (s : State) : run 0 s = .next s := rfl

/-- A run whose first step answers a next state goes on from it. -/
theorem run_succ_of_next {k : Nat} {s s' : State} (h : step s = .next s') : run (k + 1) s = run k s' := by
  have hc : Sys2Proof.core.step s = .next s' := h
  simp only [run, Host.Core.run, hc]
  rfl

/-- A run that answers a next state had a next state at its first step. -/
theorem run_succ_next {k : Nat} {s t : State} (h : run (k + 1) s = .next t) :
    ∃ s', step s = .next s' ∧ run k s' = .next t := by
  cases hs : step s with
  | next s' => exact ⟨s', rfl, (run_succ_of_next hs).symm.trans h⟩
  | fault f => cases f
  | refused r =>
    have hc : Sys2Proof.core.step s = .refused r := hs
    simp only [run, Host.Core.run, hc] at h
    cases h

@[simp] theorem execAll_nil (s : State) : execAll [] s = .next s := rfl

/-- A list of commands whose first answers a next state goes on from it. -/
theorem execAll_cons_of_next {i : Instr} {cs : List Instr} {s s' : State} (h : exec i s = .next s') :
    execAll (i :: cs) s = execAll cs s' := by
  simp only [execAll, h]

/-- A list of commands that answers a next state had one after its first command. -/
theorem execAll_cons_next {i : Instr} {cs : List Instr} {s t : State} (h : execAll (i :: cs) s = .next t) :
    ∃ s', exec i s = .next s' ∧ execAll cs s' = .next t := by
  cases hs : exec i s with
  | next s' => exact ⟨s', rfl, (execAll_cons_of_next hs).symm.trans h⟩
  | fault f => cases f
  | refused r =>
    simp only [execAll, hs] at h
    cases h

/-- The updates of a list of commands are those of the first and those of the rest. -/
theorem updateCount_cons_of_next {i : Instr} {cs : List Instr} {s s' : State} (h : exec i s = .next s') :
    updateCount (i :: cs) s = updatesOf s i + updateCount cs s' := by
  simp only [updateCount, h]

end Sys2Proof.Machine
end

