-- ==== Sys2Proof/Tests/Slice0.lean ====
section
/-! SUPPORT. Tests: the checks refuse ill-formed terms, written words decode, the vectors of spec/95_test_vectors.md hold
one step at a time, and each statement's hypotheses are met by a concrete state. Expected values are the spec's. -/

namespace Sys2Proof.Tests

open Sys2Proof.Machine

/-- The state a command leaves, if it leaves one. -/
def after (r : Result) : Option State :=
  match r with
  | .next s => some s
  | _ => none

/-- Why a command is refused, if it is. -/
def refusal (r : Result) : Option Refusal :=
  match r with
  | .refused q => some q
  | _ => none

/-- The reset state of a variant with R5's defaults. -/
def base (v : Variant) : State := State.resetWith (Config.default v)

/-- The small parameters of V-C5, V-T3 and P4. -/
def small : State :=
  State.resetWith { Config.default .b with threshBase := 16, incBase := 12, resetSeed := 1 }

/-- A state in external mode with the given `STATE`. -/
def external (v : Variant) (x : Word32) : State := { base v with sel := 3, ext := true, state := x }

/-- A state in which the given presentations are to come. -/
def presenting (l : List PortInput) : State := { base .b with input := l }

/-! ### The checks refuse ill-formed terms -/

theorem test_wellFormed_refuses_exponent_three : (Instr.cfg 3).wellFormed = false := by decide

theorem test_config_refuses_narrow_accumulator :
    validConfig { Config.default .a with accW := 31 } = false := by decide

theorem test_config_refuses_zero_threshold :
    validConfig { Config.default .a with threshBase := 3 } = false := by decide

theorem test_config_refuses_overflow :
    validConfig { Config.default .a with threshBase := 4166967296 } = false := by decide

theorem test_config_refuses_equal_taps :
    validConfig { Config.default .b with tapHi := 2 } = false := by decide

theorem test_config_refuses_reset_tier_three :
    validConfig { Config.default .b with resetExp := 3 } = false := by decide

theorem test_config_accepts_largest_bases :
    validConfig { Config.default .a with threshBase := 4166967295 } = true := by decide

theorem test_config_accepts_wide_accumulator :
    validConfig { Config.default .a with accW := 64, incBase := 2 ^ 40 } = true := by decide

/-! ### Words written out from R68 -/

theorem test_decode_cfg : decode 0b00000000000000000000000000000000010 = .ok (.cfg 2) := by decide
theorem test_decode_cfg_high_bits : decode 0x0FFFFFFFF = .error .reservedExponent := by decide
theorem test_decode_cfg_three : decode 0b00000000000000000000000000000000011 = .error .reservedExponent := by decide
theorem test_decode_src : decode 0b00100000000000000000000000000000101 = .ok (.src 5) := by decide
theorem test_decode_tick : decode 0b01000000000000000000000000000000000 = .ok .tick := by decide
theorem test_decode_trig : decode 0b01100000000000000000000000000000000 = .ok .trig := by decide
theorem test_decode_sync_ignored_bits : decode 0x4FFFFFFFE = .ok (.sync false) := by decide
theorem test_decode_sync : decode 0b10000000000000000000000000000000001 = .ok (.sync true) := by decide
theorem test_decode_seed : decode 0b10101000000000000000000000000000100 = .ok (.seed 0x40000004) := by decide
theorem test_decode_lvl : decode 0b11000000000000000000000000000000000 = .ok .lvl := by decide
theorem test_decode_reserved : decode 0b11100000000000000000000000000000000 = .ok .reserved7 := by decide
theorem test_decode_table_word : decodeTableWord 40 0x540000004 = some (.seed 0x40000004) := by decide

/-- P2's words, assembled from its text (R78). -/
theorem test_assemble_lines :
    assemble ['S', 'E', 'E', 'D', ' ', '0', 'x', '4', '0', '0', '0', '0', '0', '0', '4', ' ', ';', 'x', '\n',
      'S', 'R', 'C', ' ', ' ', '5', '\n', '\n', 'T', 'I', 'C', 'K'] =
      some [0x540000004, 0x100000005, 0x200000000] := by decide

theorem test_assemble_refuses_exponent_three : assemble ['C', 'F', 'G', ' ', '3'] = none := by decide

/-! ### Vectors of spec/95_test_vectors.md, one step each -/

/-- V-C2. -/
theorem test_cfg_left_shift :
    (after (exec (.cfg 0) { base .a with exp := 2, thr := 45158400, acc := 30208000 })).map
      (fun t => (t.acc, t.exp, t.thr)) = some (120832000, 0, 180633600) := by decide

/-- V-C5, second half of the round trip's loss. -/
theorem test_cfg_right_shift :
    (after (exec (.cfg 1) { small with acc := 3, inc := 3, sel := 2 })).map (fun t => (t.acc, t.thr)) =
      some (1, 8) := by decide

/-- V-S4. -/
theorem test_src_external :
    (after (exec (.src 0xFFFFFFFF) { base .a with sel := 1, inc := 64000000, acc := 64000000 })).map
      (fun t => (t.sel, t.ext, t.inc, t.acc)) = some (3, true, 64000000, 64000000) := by decide

/-- V-S3. -/
theorem test_src_masked :
    (after (exec (.src 6) (base .a))).map (fun t => (t.sel, t.ext, t.inc)) = some (2, false, 32000000) := by decide

/-- V-T2, the third TICK of the row EXP = 2, SEL = 0 (P3's second): three updates in one step, Variant B. -/
theorem test_tick_catches_up :
    (after (exec .tick { base .b with exp := 2, thr := 45158400, acc := 37683200, state := 0x44444444 })).map
      (fun t => (t.acc, t.state, t.resp)) = some (30208000, 0x22222220, some 0) := by decide

/-- P1's third TICK in Variant A: one update, the bit of the state before it. -/
theorem test_tick_level_of_old_state :
    (after (exec .tick { base .a with acc := 75366400, state := 0xAA3A9996 })).map
      (fun t => (t.acc, t.state, t.resp)) = some (22732800, 0xC3FF69D7, some 1) := by decide

/-- V-G3: the hold does not gate a trigger. -/
theorem test_trig_while_held :
    (after (exec .trig { external .b 0x00000004 with synced := true })).map
      (fun t => (t.state, t.level, t.synced, t.acc, t.resp)) = some (0x00000009, 1, true, 0, none) := by decide

/-- V-G1. -/
theorem test_trig_internal : (after (exec .trig (base .a))).map (fun t => t.state) = some 0x11111111 := by decide

/-- V-Y1. -/
theorem test_sync_hold :
    (after (exec (.sync true) { base .a with acc := 75366400, level := 1 })).map
      (fun t => (t.synced, t.acc, t.level)) = some (true, 0, 1) := by decide

/-- V-Y4. -/
theorem test_sync_release_keeps_phase :
    (after (exec (.sync false) { base .a with acc := 98099200 })).map (fun t => (t.synced, t.acc)) =
      some (false, 98099200) := by decide

/-- V-D1. -/
theorem test_seed_keeps_level :
    (after (exec (.seed 0x40000004) { base .a with level := 1 })).map (fun t => (t.state, t.level)) =
      some (0x40000004, 1) := by decide

/-- V-D2. -/
theorem test_lvl_after_reset : (after (exec .lvl State.reset)).map (fun t => t.resp) = some (some 0) := by decide

/-- V-A2, V-A3 and V-A5b: the comparison is strict, and the multiplier is the document's. -/
theorem test_update_variant_a :
    ((update (external .a 0x80000000)).level, (update (external .a 0x80000001)).level,
      (update (external .a 0x80000001)).state, (update (external .a 1)).state) =
      (0, 1, 0x869403C6, 0x069403C6) := by decide

/-- V-B2, V-B3, V-B5b and V-B5d. -/
theorem test_update_variant_b :
    ((update (external .b 0x00000004)).state, (update (external .b 0x40000000)).state,
      (update (external .b 0xFFFFFFFF)).state, (update (external .b 0xC0000000)).level) =
      (0x00000009, 0x80000001, 0xFFFFFFFE, 1) := by decide

/-- R190: reset comes before a command presented with it. -/
theorem test_reset_wins :
    (after (step { external .b 7 with input := [{ command 0x500000001 with rst := true }], acc := 9 })).map
      (fun t => (t.state, t.ext, t.acc, t.input)) = some (0x11111111, false, 0, []) := by decide

/-- V-C8 and R75. -/
theorem test_step_refuses_reserved :
    (refusal (step (presenting [command 0x0FFFFFFFF])), refusal (step (State.reset.withFetchWord 40 0x700000001))) =
      (some .reservedExponent, some .reservedOpcode) := by decide

/-- A table word runs as the first command after reset. -/
theorem test_first_command_after_reset :
    (after (step (State.reset.withFetchWord 40 0x200000000))).map (fun t => (t.acc, t.resp)) =
      some (128000000, some 0) := by decide

/-! ### Each statement's hypotheses are met -/

theorem wit_DecodeOfEncode : (Instr.cfg 2).wellFormed = true ∧ (Instr.reserved7).wellFormed = true := by decide

theorem wit_DecodeFollowsProcedure : (2 : Word32) ≤ 2 ∧ (2 : Word32) < 3 := by decide

theorem wit_DecodedCommandsReencode : decode 0x3FFFFFFFF = .ok .trig := by decide

theorem wit_AssemblerEmitsCanonicalWords :
    assemble ['C', 'F', 'G', ' ', '2'] = some [0x000000002] ∧ (0x000000002 : CmdWord) ∈ [(0x000000002 : CmdWord)] := by
  decide

theorem wit_StepRunsDecodedCommand :
    validConfig (presenting [command 0x100000005, idleInput]).config = true ∧
      (presenting [command 0x100000005, idleInput]).input = command 0x100000005 :: [idleInput] ∧
      (command 0x100000005).rst = false ∧ (command 0x100000005).cmdValid = true ∧
      decode (command 0x100000005).cmd = .ok (.src 5) := by decide

theorem wit_PlacedWordRunsNext :
    validConfig State.reset.config = true ∧ decodeTableWord 40 0x000000002 = some (.cfg 2) := by decide

theorem wit_IdleStepChangesNoRegister_nothing_presented :
    validConfig (base .a).config = true ∧ (base .a).input = [] := by decide

theorem wit_IdleStepChangesNoRegister_not_valid :
    validConfig (presenting [{ idleInput with cmd := 0x500000001 }]).config = true ∧
      (presenting [{ idleInput with cmd := 0x500000001 }]).input = [{ idleInput with cmd := 0x500000001 }] ∧
      ({ idleInput with cmd := 0x500000001 } : PortInput).rst = false ∧
      ({ idleInput with cmd := 0x500000001 } : PortInput).cmdValid = false := by decide

theorem wit_ResetStepLoadsResetValues :
    validConfig (presenting [resetInput]).config = true ∧ (presenting [resetInput]).input = [resetInput] ∧
      resetInput.rst = true := by decide

theorem wit_ReservedWordsRefused :
    validConfig (presenting [command 0x700000000]).config = true ∧
      (presenting [command 0x700000000]).input = [command 0x700000000] ∧ opField 0x700000000 = 7 ∧
      (presenting [command 0x000000003]).input = [command 0x000000003] ∧ opField 0x000000003 = 0 ∧
      2 < argField 0x000000003 := by decide

theorem wit_OnlyReservedWordsRefused :
    SafeState (presenting [command 0x000000002]) ∧
      (presenting [command 0x000000002]).input = [command 0x000000002] := by decide

theorem wit_RunsKeepTheConfiguration : run 2 (presenting [resetInput]) = .next (presenting []) := by rfl

theorem wit_EveryResetStateMeetsInvariant :
    validConfig { Config.default .b with threshBase := 4, incBase := 0, resetExp := 2, resetSel := 3 } = true := by
  decide

theorem wit_StepKeepsInvariant : SafeState (presenting [resetInput]) ∧
    step (presenting [resetInput]) = .next (presenting []) := ⟨by decide, by rfl⟩

/-- R36's boundary state: `ACC = THR` meets the invariant. -/
theorem wit_SafeState_allows_full_phase :
    SafeState { State.resetWith { Config.default .a with threshBase := 21, incBase := 20 } with
      exp := 1, thr := 10, acc := 10 } := by decide

theorem wit_AdmittedRunsNeverStop : SafeState (presenting [command 0x200000000, resetInput, idleInput]) ∧
    ∀ p ∈ (presenting [command 0x200000000, resetInput, idleInput]).input, p.admitted = true := by decide

theorem wit_CommandsAreTotal : SafeState (external .b 4) ∧ (Instr.cfg 2).wellFormed = true ∧
    Instr.cfg 2 ≠ .reserved7 := by decide

theorem wit_RegistersFitTheirWidth : SafeState (base .a) ∧ (base .a).synced = false ∧ (base .a).ext = false ∧
    exec .tick (base .a) = .next { base .a with acc := 128000000, resp := some 0 } :=
  ⟨by decide, rfl, rfl, by rfl⟩

theorem wit_CfgResult : (2 : BitVec 2) ≠ 3 ∧ validConfig (base .a).config = true ∧ (2 : Word32) < 3 ∧
    ({ base .a with exp := 2, acc := 30208000 } : State).config = Config.default .a ∧
    ({ base .a with exp := 2, acc := 30208000 } : State).exp = 2 ∧
    ({ base .a with exp := 2, acc := 30208000 } : State).acc = 30208000 := by decide

theorem wit_CfgRescaleIsExact : SafeState { base .a with exp := 1, thr := 90316800, acc := 75366400 } ∧
    (0 : BitVec 2) < 1 ∧ (1 : BitVec 2) < 2 ∧
    exec (.cfg 0) { base .a with exp := 1, thr := 90316800, acc := 75366400 } =
      .next { base .a with acc := 150732800 } ∧
    exec (.cfg 2) { base .a with exp := 1, thr := 90316800, acc := 75366400 } =
      .next { base .a with exp := 2, thr := 45158400, acc := 37683200 } ∧
    exec (.cfg 1) { base .a with exp := 1, thr := 90316800, acc := 75366400 } =
      .next { base .a with exp := 1, thr := 90316800, acc := 75366400 } :=
  ⟨by decide, by decide, by decide, by rfl, by rfl, by rfl⟩

theorem wit_CfgRoundTrip : SafeState { small with sel := 2, inc := 3, acc := 3 } ∧ (2 : BitVec 2) ≠ 3 := by decide

theorem wit_DefaultPhaseGranularity : (base .a).config = Config.default .a ∧
    SafeState { base .a with acc := 128000000 } ∧ 2 ^ (11 - (base .a).exp.toNat) ∣ 128000000 ∧
    (base .a).exp < 2 ∧
    step { base .a with acc := 128000000 } = .next { base .a with acc := 128000000 } ∧
    exec (.cfg 2) { base .a with acc := 128000000 } =
      .next { base .a with exp := 2, thr := 45158400, acc := 32000000 } :=
  ⟨rfl, by decide, by decide, by decide, by rfl, by rfl⟩

theorem wit_SrcResult : validConfig (base .b).config = true ∧ (base .b).config = Config.default .b := by decide

theorem wit_LastSrcWins : (6 : Word32) &&& 3 ≠ 3 ∧ (7 : Word32) &&& 3 = 3 := by decide

theorem wit_CfgAndSrcCommute : (0 : BitVec 2) ≠ 3 := by decide

theorem wit_TickRunsTheLoop :
    ¬((external .a 1).synced = false ∧ (external .a 1).ext = false) ∧
    (base .a).synced = false ∧ (base .a).ext = false ∧ (base .a).thr ≠ 0 ∧
    ((base .a).acc + (base .a).inc) % 2 ^ (base .a).config.accW < (base .a).thr ∧
    ({ base .a with acc := 128000000 } : State).config = Config.default .a ∧
    (base .a).thr = 180633600 ∧ (base .a).inc = 128000000 := by decide

theorem wit_TickIsNoOpWhenHeldOrExternal : (external .a 1).synced = true ∨ (external .a 1).ext = true := by decide

theorem wit_TickIsNoOpWhenHeldOrExternal_held :
    ({ base .b with synced := true } : State).synced = true ∧ (base .b).ext = false := by decide

theorem wit_TickClosedForm : SafeState { base .a with acc := 128000000 } ∧ (base .a).synced = false ∧
    (base .a).ext = false := by decide

theorem wit_TickUpdatesBounded : SafeState { base .b with exp := 2, thr := 45158400, acc := 45158400 } ∧
    (base .b).synced = false ∧ (base .b).ext = false ∧ (base .b).config = Config.default .b := by decide

theorem wit_TickThenLvlGivesOneBit : (base .a).thr ≠ 0 := by decide

theorem wit_AccumulatorCorrectness : SafeState (base .a) ∧ (base .a).synced = false ∧ (base .a).ext = false ∧
    (base .a).acc < (base .a).thr ∧
    ∀ i ∈ [Instr.tick, Instr.src 2, Instr.tick, Instr.tick], clocksInternally i = true := by decide

theorem wit_SeedNeverMovesTheClock : execAll [.tick, .lvl] (base .a) =
    .next { base .a with acc := 128000000, resp := some 0 } := by rfl

theorem wit_TrigResult : (external .b 0x40000004).ext = true ∧ (base .b).ext = false ∧
    (external .b 0x40000004).config = Config.default .b ∧ (external .b 0x40000004).state = 0x40000004 := by decide

theorem wit_DroppedTriggerLeavesNoTrace : (base .a).ext = false := by decide

theorem wit_TickAndTrigCommute : (external .b 0x40000000).thr ≠ 0 ∧ (base .a).thr ≠ 0 := by decide

theorem wit_SyncResult : ({ base .a with acc := 68198400 } : State).synced = false ∧
    ({ base .a with acc := 68198400 } : State).acc = 68198400 := by decide

theorem wit_HoldAndReleaseEffects : SafeState { base .a with synced := true } ∧
    ({ base .a with synced := true } : State).synced = true ∧
    SafeState { base .a with acc := 98099200 } ∧ (base .a).synced = false := by decide

theorem wit_SeedShowsAtTheNextUpdate : (external .a 0).ext = true ∧ (external .a 0).config = Config.default .a ∧
    (external .b 0).ext = true ∧ (external .b 0).config = Config.default .b := by decide

theorem wit_LvlResult : (external .b 0x40000004).config = Config.default .b ∧ (external .b 0x40000004).ext = true ∧
    (external .b 0x40000004).state = 0x40000004 := by decide

theorem wit_UpdateVariantA : (external .a 0).config.variant = .a ∧ (external .a 0).config = Config.default .a ∧
    (external .a 0).state = 0 := by decide

theorem wit_VariantALevelIsOldTopBit : (external .a 0x80000000).config = Config.default .a := by decide

theorem wit_UpdateVariantB : (external .b 0x40000004).config.variant = .b ∧
    (external .b 0x40000004).state.getLsbD 30 = (external .b 0x40000004).state.getLsbD 2 ∧
    (external .b 4).state.getLsbD 30 ≠ (external .b 4).state.getLsbD 2 ∧
    (external .b 0x40000004).config = Config.default .b ∧ (external .b 0x40000004).state = 0x40000004 := by decide

theorem wit_InsertTable : (external .b 0).config = Config.default .b ∧
    (0xBFFFFFFB : Word32) &&& 0x40000004 = 0 ∧ (0x80000004 : Word32) &&& 0x40000004 = 4 ∧
    (0xC0000000 : Word32) &&& 0x40000004 = 0x40000000 ∧ (0xFFFFFFFF : Word32) &&& 0x40000004 = 0x40000004 := by
  decide

theorem wit_VariantBLockUp : (external .b 0x80000000).config = Config.default .b ∧
    (external .b 0x80000000).state.extractLsb' 0 31 = 0 ∧
    (external .b 0x40000000).state.extractLsb' 0 31 ≠ 0 := by decide

theorem wit_VariantBDeadBit : (presenting [command 0x600000000]).config = Config.default .b ∧
    run 1 (presenting [command 0x600000000]) = .next { presenting [] with resp := some 0 } := ⟨by decide, by rfl⟩

theorem wit_VariantBRecurrence : (external .b 1).config = Config.default .b ∧ 31 ≤ 31 := by decide

theorem wit_SeededRunsAreDeterministic :
    (external .b 4).config = (base .b).config ∧ (external .b 4).state = ({ base .b with state := 4 } : State).state ∧
    (∀ i ∈ [Instr.trig], keepsSeed i = true) ∧ (∀ i ∈ [Instr.tick, Instr.tick], keepsSeed i = true) ∧
    execAll [.trig] (external .b 4) = .next { external .b 9 with level := 1 } ∧
    execAll [.tick, .tick] { base .b with state := 4 } =
      .next { base .b with state := 9, level := 1, acc := 75366400, resp := some 1 } ∧
    updateCount [.trig] (external .b 4) = updateCount [.tick, .tick] { base .b with state := 4 } ∧
    0 < updateCount [.trig] (external .b 4) :=
  ⟨rfl, rfl, by decide, by decide, by rfl, by rfl, by decide, by decide⟩

theorem wit_LevelChangesOnlyByUpdates :
    exec .trig (external .b 4) = .next { external .b 9 with level := 1 } ∧ updatesOf (external .b 4) .trig = 0 + 1 ∧
    exec .lvl (base .b) = .next { base .b with resp := some 0 } ∧ updatesOf (base .b) .lvl = 0 ∧
    Instr.lvl ≠ .tick ∧ Instr.lvl ≠ .trig :=
  ⟨by rfl, by decide, by rfl, by decide, by decide, by decide⟩

end Sys2Proof.Tests
end

section
/-! SUPPORT. The selector of SRC is masked, never rejected (spec/40_config.md R101). -/

namespace Sys2Proof.Machine

/-- The one thing SRC can answer: the writes of its masked selector, and no response (R100). -/
theorem exec_src (sel : Word32) (s : State) :
    exec (.src sel) s = .next ((selectSource (maskSel sel) s).respond none) := rfl

/-- SRC depends on its selector only through the mask (R101). -/
theorem exec_src_congr {a b : Word32} (h : maskSel a = maskSel b) (s : State) :
    exec (.src a) s = exec (.src b) s := by
  rw [exec_src, exec_src, h]

/-- Both branches of SRC, external and internal, store the masked selector (R100). -/
@[simp] theorem selectSource_sel (m : BitVec 2) (s : State) : (selectSource m s).sel = m := by
  rw [selectSource_spec]
  split
  case isTrue external => exact external.symm
  case isFalse => rfl

/-- Settles O27: SRC sees only the masked selector, so selectors that agree modulo 4 are one command. -/
theorem selectorIsMasked : Obligations.SelectorIsMasked := by
  unfold Obligations.SelectorIsMasked
  refine ⟨fun sel s => exec_src_congr (maskSel_masked sel).symm s, fun s => ?named, fun sel s => ?stored⟩
  case named =>
    exact ⟨exec_src_congr (by decide) s, exec_src_congr (by decide) s, exec_src_congr (by decide) s,
      exec_src_congr (by decide) s, exec_src_congr (by decide) s⟩
  case stored =>
    refine ⟨_, exec_src sel s, ?_⟩
    rw [respond_sel, selectSource_sel, maskSel_toNat]

end Sys2Proof.Machine
end

section
/-! SUPPORT. While held or externally clocked, TICK writes no register (spec/41_clocking.md R111). -/

namespace Sys2Proof.Machine

/-- A TICK while held or externally clocked answers `LEVEL` and does nothing else (R111, R114). -/
theorem exec_tick_of_held_or_external {s : State} (h : s.synced = true ∨ s.ext = true) :
    exec .tick s = .next (s.respond (some s.level)) := by
  have hcond : (s.synced || s.ext) = true := by simpa using h
  simp only [exec, execTick, hcond, if_true]

/-- Settles O31, by induction on the number of TICKs: a response leaves `SYNCD` and `EXT` alone, so each TICK meets the
same condition as the one before it. -/
theorem tickIsNoOpWhenHeldOrExternal : Obligations.TickIsNoOpWhenHeldOrExternal := by
  unfold Obligations.TickIsNoOpWhenHeldOrExternal
  intro k
  induction k with
  | zero => exact fun s _ => ⟨s, execAll_nil s, rfl⟩
  | succ k ih =>
    intro s h
    have hstill : (s.respond (some s.level)).synced = true ∨ (s.respond (some s.level)).ext = true := by
      simpa using h
    obtain ⟨t, hrun, hframe⟩ := ih (s.respond (some s.level)) hstill
    exact ⟨t, (execAll_cons_of_next (exec_tick_of_held_or_external h)).trans hrun, hframe⟩

end Sys2Proof.Machine
end

section
/-! SUPPORT. Commands other than SEED act on `STATE` and `LEVEL` only through the updates they perform
(spec/42_lfsr.md R160). -/

namespace Sys2Proof.Machine

/-- Two states that no number of updates can tell apart: the configuration and the two registers `UPDATE()` reads or
writes agree (R150). -/
def SameGenerator (s t : State) : Prop := s.config = t.config ∧ s.state = t.state ∧ s.level = t.level

theorem SameGenerator.trans {s t u : State} (hst : SameGenerator s t) (htu : SameGenerator t u) :
    SameGenerator s u := by
  obtain ⟨hconfig, hstate, hlevel⟩ := hst
  obtain ⟨hconfig', hstate', hlevel'⟩ := htu
  exact ⟨hconfig.trans hconfig', hstate.trans hstate', hlevel.trans hlevel'⟩

theorem SameGenerator.after_update {s t : State} (h : SameGenerator s t) : SameGenerator (update s) (update t) := by
  obtain ⟨hconfig, hstate, -⟩ := h
  refine ⟨hconfig, ?_, ?_⟩
  · rw [update_state, update_state, hconfig, hstate]
  · rw [update_level, update_level, hconfig, hstate]

theorem SameGenerator.after_updates {s t : State} (h : SameGenerator s t) (n : Nat) :
    SameGenerator (update^[n] s) (update^[n] t) := by
  induction n generalizing s t with
  | zero => exact h
  | succ n ih => exact ih h.after_update

/-- No write of SRC reaches the generator (R100). -/
theorem sameGenerator_selectSource (m : BitVec 2) (s : State) : SameGenerator (selectSource m s) s := by
  rw [selectSource_spec]
  split
  case isTrue external => exact ⟨rfl, rfl, rfl⟩
  case isFalse internal => exact ⟨rfl, rfl, rfl⟩

/-- No write of SYNC reaches the generator (R130). -/
theorem sameGenerator_hold (active : Bool) (s : State) : SameGenerator (hold active s) s := by
  cases active with
  | false => exact ⟨rfl, rfl, rfl⟩
  | true => exact ⟨rfl, rfl, rfl⟩

/-- A TICK's internal clocking is, for the generator, the updates of its closed form (R112). -/
theorem sameGenerator_clockInternal {s : State} (hpos : 0 < s.thr) :
    SameGenerator (clockInternal s) (update^[addW s.config s.acc s.inc / s.thr] s) := by
  rw [clockInternal_spec s hpos]
  exact ⟨rfl, rfl, rfl⟩

@[simp] theorem updatesOf_tick (s : State) :
    updatesOf s .tick = if s.synced || s.ext then 0 else addW s.config s.acc s.inc / s.thr := rfl

@[simp] theorem updatesOf_trig (s : State) : updatesOf s .trig = if s.ext then 1 else 0 := rfl

/-- One command other than SEED is, for the generator, the updates it performs (R160). -/
theorem sameGenerator_exec {i : Instr} {s t : State} (hi : keepsSeed i = true) (h : exec i s = .next t) :
    SameGenerator t (update^[updatesOf s i] s) := by
  obtain ⟨e, rfl, -, rfl⟩ | ⟨sel, rfl, rfl⟩ | ⟨rfl, hidle, rfl⟩ | ⟨rfl, hclocks, hthr, rfl⟩ | ⟨rfl, hext, rfl⟩ |
    ⟨rfl, hext, rfl⟩ | ⟨active, rfl, rfl⟩ | ⟨v, rfl, rfl⟩ | ⟨rfl, rfl⟩ := exec_next_cases h
  · exact ⟨rfl, rfl, rfl⟩
  · exact sameGenerator_selectSource (maskSel sel) s
  · rw [updatesOf_tick, if_pos hidle]
    exact ⟨rfl, rfl, rfl⟩
  · rw [updatesOf_tick, if_neg (by simp [hclocks])]
    exact sameGenerator_clockInternal (Nat.pos_of_ne_zero hthr)
  · rw [updatesOf_trig, if_pos hext]
    exact ⟨rfl, rfl, rfl⟩
  · rw [updatesOf_trig, if_neg (by simp [hext])]
    exact ⟨rfl, rfl, rfl⟩
  · exact sameGenerator_hold active s
  · cases hi
  · exact ⟨rfl, rfl, rfl⟩

/-- A list of commands without SEED is, for the generator, the updates it performs: induction on the list, one
command's updates followed by those of the rest (R160). -/
theorem sameGenerator_execAll {cs : List Instr} {s t : State} (hcs : ∀ i ∈ cs, keepsSeed i = true)
    (h : execAll cs s = .next t) : SameGenerator t (update^[updateCount cs s] s) := by
  induction cs generalizing s with
  | nil => rw [next_inj h]; exact ⟨rfl, rfl, rfl⟩
  | cons i cs ih =>
    obtain ⟨s', hfirst, hrest⟩ := execAll_cons_next h
    obtain ⟨hi, hcs⟩ := List.forall_mem_cons.mp hcs
    have hhead : SameGenerator s' (update^[updatesOf s i] s) := sameGenerator_exec hi hfirst
    have htail : SameGenerator t (update^[updateCount cs s'] s') := ih hcs hrest
    rw [updateCount_cons_of_next hfirst, Nat.add_comm, Function.iterate_add_apply]
    exact htail.trans (hhead.after_updates _)

/-- `LEVEL` after some updates is a function of the configuration, of `STATE` and of their number; `LEVEL` at the start
matters only if there is no update (R141, R160). -/
theorem iterate_update_level_congr {s r : State} {n : Nat} (hconfig : s.config = r.config)
    (hstate : s.state = r.state) (h : 0 < n ∨ s.level = r.level) :
    (update^[n] s).level = (update^[n] r).level := by
  cases n with
  | zero => exact h.resolve_left (Nat.lt_irrefl 0)
  | succ n => rw [iterate_update_level, iterate_update_level, hconfig, hstate]

/-- Settles O52: for `STATE` and `LEVEL` a list of commands without SEED is as many updates as it performs, and updates
alone are a function of the configuration and `STATE`. -/
theorem seededRunsAreDeterministic : Obligations.SeededRunsAreDeterministic := by
  unfold Obligations.SeededRunsAreDeterministic
  have state_of_run : ∀ (cs : List Instr) (s t : State), (∀ i ∈ cs, keepsSeed i = true) →
      execAll cs s = .next t → t.state = (nextState s.config)^[updateCount cs s] s.state := by
    intro cs s t hcs hrun
    obtain ⟨-, hstate, -⟩ := sameGenerator_execAll hcs hrun
    rw [hstate, iterate_update_state]
  refine ⟨state_of_run, ?_⟩
  intro cs ds s r t u hconfig hstate hcs hds hs hr hcount
  refine ⟨?state, fun hlevel => ?level⟩
  case state => rw [state_of_run cs s t hcs hs, state_of_run ds r u hds hr, hconfig, hstate, hcount]
  case level =>
    obtain ⟨-, -, ht⟩ := sameGenerator_execAll hcs hs
    obtain ⟨-, -, hu⟩ := sameGenerator_execAll hds hr
    rw [ht, hu, ← hcount]
    exact iterate_update_level_congr hconfig hstate hlevel

end Sys2Proof.Machine
end

section
/-! SUPPORT. One update in Variant A, in numbers (spec/42_lfsr.md R151). -/

namespace Sys2Proof.Machine

/-- The multiplication and the addition of Variant A wrap around once, at the end (R151). -/
theorem nextA_toNat (c : Config) (old : Word32) :
    (nextA c old).toNat = (old.toNat * c.lcgMul.toNat + c.lcgAdd.toNat) % 2 ^ 32 := by
  rw [nextA, BitVec.toNat_add, BitVec.toNat_mul, Nat.mod_add_mod]

/-- The comparison of Variant A is unsigned and strict (R151). -/
theorem levelA_eq (c : Config) (old : Word32) : levelA c old = if c.lcgCmp.toNat < old.toNat then 1 else 0 := by
  simp only [levelA, BitVec.lt_def]

theorem nextState_of_variant_a {c : Config} (h : c.variant = .a) (old : Word32) : nextState c old = nextA c old := by
  simp only [nextState, h]

theorem nextLevel_of_variant_a {c : Config} (h : c.variant = .a) (old : Word32) : nextLevel c old = levelA c old := by
  simp only [nextLevel, h]

/-- With the default numbers of Variant A, an update compares the old `STATE` with `2^31` (R151). -/
theorem update_level_default_a {s : State} (h : s.config = Config.default .a) :
    (update s).level = if 0x80000000 < s.state.toNat then 1 else 0 := by
  rw [update_level, h, nextLevel_of_variant_a rfl, levelA_eq]
  rfl

/-- With the default numbers of Variant A, an update is the source's formula (R151). -/
theorem update_state_default_a {s : State} (h : s.config = Config.default .a) :
    (update s).state.toNat = (s.state.toNat * 110351245 + 12345) % 2 ^ 32 := by
  rw [update_state, h, nextState_of_variant_a rfl, nextA_toNat]
  rfl

/-- Settles O45, from the recurrence and the comparison in numbers; the example is the formula at `STATE` 0. -/
theorem updateVariantA : Obligations.UpdateVariantA := by
  unfold Obligations.UpdateVariantA
  refine ⟨fun s hvariant => ?formula, fun s hc => ⟨update_level_default_a hc, update_state_default_a hc⟩,
    fun s hc hzero => ?fromZero⟩
  case formula =>
    have hstate : nextState s.config s.state =
        BitVec.ofNat 32 ((s.state.toNat * s.config.lcgMul.toNat + s.config.lcgAdd.toNat) % 2 ^ 32) := by
      rw [nextState_of_variant_a hvariant, ← nextA_toNat, BitVec.ofNat_toNat, BitVec.setWidth_eq]
    have hlevel : nextLevel s.config s.state = if s.config.lcgCmp.toNat < s.state.toNat then 1 else 0 := by
      rw [nextLevel_of_variant_a hvariant, levelA_eq]
    rw [← hstate, ← hlevel]
    rfl
  case fromZero =>
    refine ⟨?_, BitVec.eq_of_toNat_eq ?_⟩
    · rw [update_level_default_a hc, hzero]
      rfl
    · rw [update_state_default_a hc, hzero]
      rfl

end Sys2Proof.Machine
end

section
/-! SUPPORT. What every command word decodes to, by its two fields, and the canonical words (spec/30_encoding.md R67,
R75 to R78). -/

namespace Sys2Proof

@[simp] theorem opField_encode (i : Instr) : opField (encode i) = i.opcode := opField_wordOf _ _

@[simp] theorem argField_encode (i : Instr) : argField (encode i) = i.argument := argField_wordOf _ _

/-- The exponent of CFG is the argument, where that is at most 2 (R69 (a)). -/
theorem decode_wordOf_cfg {arg : Word32} (h : arg ≤ 2) : decode (wordOf 0 arg) = .ok (.cfg (arg.setWidth 2)) := by
  have hle : ¬ arg > 2 := BitVec.not_lt.mpr h
  have hlow : arg.extractLsb' 0 2 = arg.setWidth 2 := BitVec.eq_of_toNat_eq (by simp)
  rw [decode, opField_wordOf, argField_wordOf, ← hlow]
  exact if_neg hle

/-- Opcode 0 with an argument above 2 is reserved (R75 (b)). -/
theorem decode_wordOf_cfg_reserved {arg : Word32} (h : 2 < arg) :
    decode (wordOf 0 arg) = .error .reservedExponent := by
  rw [decode, opField_wordOf, argField_wordOf]
  exact if_pos h

theorem decode_wordOf_src (arg : Word32) : decode (wordOf 1 arg) = .ok (.src arg) := by simp [decode]

theorem decode_wordOf_tick (arg : Word32) : decode (wordOf 2 arg) = .ok .tick := by simp [decode]

theorem decode_wordOf_trig (arg : Word32) : decode (wordOf 3 arg) = .ok .trig := by simp [decode]

theorem decode_wordOf_sync (arg : Word32) : decode (wordOf 4 arg) = .ok (.sync (arg.getLsbD 0)) := by simp [decode]

theorem decode_wordOf_seed (arg : Word32) : decode (wordOf 5 arg) = .ok (.seed arg) := by simp [decode]

theorem decode_wordOf_lvl (arg : Word32) : decode (wordOf 6 arg) = .ok .lvl := by simp [decode]

theorem decode_wordOf_reserved7 (arg : Word32) : decode (wordOf 7 arg) = .ok .reserved7 := by simp [decode]

/-- A legal exponent, carried in the argument, is one the decoder admits (R69 (a), R75 (b)). -/
theorem exponent_le_two {e : BitVec 2} (h : e ≠ 3) : e.setWidth 32 ≤ 2 := by
  have hle := Machine.toNat_le_two h
  rw [BitVec.le_def, BitVec.toNat_setWidth]
  exact (Nat.mod_le _ _).trans hle

/-- Every word is one of the nine rows of the decoding procedure (R77). -/
theorem decode_cases (w : CmdWord) :
    (opField w = 0 ∧ argField w ≤ 2 ∧ decode w = .ok (.cfg ((argField w).setWidth 2))) ∨
    (opField w = 0 ∧ 2 < argField w ∧ decode w = .error .reservedExponent) ∨
    (opField w = 1 ∧ decode w = .ok (.src (argField w))) ∨
    (opField w = 2 ∧ decode w = .ok .tick) ∨
    (opField w = 3 ∧ decode w = .ok .trig) ∨
    (opField w = 4 ∧ decode w = .ok (.sync ((argField w).getLsbD 0))) ∨
    (opField w = 5 ∧ decode w = .ok (.seed (argField w))) ∨
    (opField w = 6 ∧ decode w = .ok .lvl) ∨
    (opField w = 7 ∧ decode w = .ok .reserved7) := by
  have hop : ∀ op : BitVec 3, op = 0 ∨ op = 1 ∨ op = 2 ∨ op = 3 ∨ op = 4 ∨ op = 5 ∨ op = 6 ∨ op = 7 := by decide
  have hw := wordOf_fields w
  generalize opField w = op at hw ⊢
  generalize argField w = arg at hw ⊢
  subst hw
  rcases hop op with rfl | rfl | rfl | rfl | rfl | rfl | rfl | rfl
  · by_cases h : arg ≤ 2
    · exact .inl ⟨rfl, h, decode_wordOf_cfg h⟩
    · have hlt := BitVec.not_le.mp h
      exact .inr (.inl ⟨rfl, hlt, decode_wordOf_cfg_reserved hlt⟩)
  · exact .inr (.inr (.inl ⟨rfl, decode_wordOf_src arg⟩))
  · exact .inr (.inr (.inr (.inl ⟨rfl, decode_wordOf_tick arg⟩)))
  · exact .inr (.inr (.inr (.inr (.inl ⟨rfl, decode_wordOf_trig arg⟩))))
  · exact .inr (.inr (.inr (.inr (.inr (.inl ⟨rfl, decode_wordOf_sync arg⟩)))))
  · exact .inr (.inr (.inr (.inr (.inr (.inr (.inl ⟨rfl, decode_wordOf_seed arg⟩))))))
  · exact .inr (.inr (.inr (.inr (.inr (.inr (.inr (.inl ⟨rfl, decode_wordOf_lvl arg⟩)))))))
  · exact .inr (.inr (.inr (.inr (.inr (.inr (.inr (.inr ⟨rfl, decode_wordOf_reserved7 arg⟩)))))))

/-- The ignored bits of a word never reach the opcode of what it decodes to (R76). -/
theorem opcode_of_decode {w : CmdWord} {i : Instr} (h : decode w = .ok i) : i.opcode = opField w := by
  obtain ⟨hop, -, hd⟩ | ⟨-, -, hd⟩ | ⟨hop, hd⟩ | ⟨hop, hd⟩ | ⟨hop, hd⟩ | ⟨hop, hd⟩ | ⟨hop, hd⟩ | ⟨hop, hd⟩ |
    ⟨hop, hd⟩ := decode_cases w <;> rw [hd] at h <;> cases h <;> exact hop.symm

/-- Only opcode 7 decodes to the reserved row (R75 (a)). -/
theorem decode_eq_reserved7_iff {w : CmdWord} : decode w = .ok .reserved7 ↔ opField w = 7 := by
  refine ⟨fun h => (opcode_of_decode h).symm, fun h => ?_⟩
  rw [← wordOf_fields w, h]
  exact decode_wordOf_reserved7 _

/-- Only opcode 0 with an argument above 2 fails to decode (R75 (b)). -/
theorem decode_eq_error_iff {w : CmdWord} :
    decode w = .error .reservedExponent ↔ opField w = 0 ∧ 2 < argField w := by
  constructor
  · intro h
    obtain ⟨-, -, hd⟩ | ⟨hop, hlt, -⟩ | ⟨-, hd⟩ | ⟨-, hd⟩ | ⟨-, hd⟩ | ⟨-, hd⟩ | ⟨-, hd⟩ | ⟨-, hd⟩ | ⟨-, hd⟩ :=
      decode_cases w
    case inr.inl => exact ⟨hop, hlt⟩
    all_goals rw [hd] at h; cases h
  · rintro ⟨hop, hlt⟩
    rw [← wordOf_fields w, hop]
    exact decode_wordOf_cfg_reserved hlt

/-- Decoding the canonical word of a well-formed instruction gives it back, command by command (R77, R78). -/
theorem decode_encode {i : Instr} (h : i.wellFormed = true) : decode (encode i) = .ok i := by
  cases i with
  | cfg e =>
    have he : e ≠ 3 := by simpa [Instr.wellFormed] using h
    have hround : (e.setWidth 32).setWidth 2 = e := BitVec.setWidth_setWidth_of_le e (by decide)
    exact (decode_wordOf_cfg (exponent_le_two he)).trans (by rw [hround])
  | src sel => exact decode_wordOf_src sel
  | tick => exact decode_wordOf_tick 0
  | trig => exact decode_wordOf_trig 0
  | sync active =>
    cases active with
    | false => exact decode_wordOf_sync 0
    | true => exact decode_wordOf_sync 1
  | seed v => exact decode_wordOf_seed v
  | lvl => exact decode_wordOf_lvl 0
  | reserved7 => exact decode_wordOf_reserved7 0

/-- Settles O1: the decoder inverts the encoder on every well-formed instruction. -/
theorem decodeOfEncode : Obligations.DecodeOfEncode := by
  unfold Obligations.DecodeOfEncode
  exact fun _ h => decode_encode h

/-- Settles O2, one row of the procedure after another. -/
theorem decodeFollowsProcedure : Obligations.DecodeFollowsProcedure := by
  unfold Obligations.DecodeFollowsProcedure
  exact ⟨wordOf_fields, fun arg => ⟨decode_wordOf_cfg, decode_wordOf_cfg_reserved, decode_wordOf_src arg,
    decode_wordOf_tick arg, decode_wordOf_trig arg, decode_wordOf_sync arg, decode_wordOf_seed arg,
    decode_wordOf_lvl arg, decode_wordOf_reserved7 arg⟩⟩

/-- Settles O3: what a word decodes to is well formed, so its canonical word decodes to it too. -/
theorem decodedCommandsReencode : Obligations.DecodedCommandsReencode := by
  unfold Obligations.DecodedCommandsReencode
  intro w i h
  have hwf := decode_wellFormed h
  exact ⟨hwf, by rw [opField_encode, opcode_of_decode h], decode_encode hwf⟩

/-- Settles O4, by evaluating the decoder on each written word. -/
theorem writtenWordsDecode : Obligations.WrittenWordsDecode := by
  unfold Obligations.WrittenWordsDecode
  decide

end Sys2Proof
end

section
/-! SUPPORT. The assembler emits encodings of the commands it names (spec/30_encoding.md R78). -/

namespace Sys2Proof.Machine

/-- A word that stands for a command: the canonical word of one that is well formed and not reserved. -/
def IsCommandWord (w : CmdWord) : Prop := ∃ i : Instr, i.wellFormed = true ∧ i ≠ .reserved7 ∧ w = encode i

theorem plainCommand_sound {name : List Char} {i : Instr} (h : plainCommand name = some i) :
    i.wellFormed = true ∧ i ≠ .reserved7 := by
  unfold plainCommand at h
  split_ifs at h <;> cases h <;> decide

theorem argumentCommand_sound {name : List Char} {n : Nat} {i : Instr} (h : argumentCommand name n = some i) :
    i.wellFormed = true ∧ i ≠ .reserved7 := by
  unfold argumentCommand at h
  split_ifs at h with hcfg hn <;> cases h
  case pos =>
    have hne : BitVec.ofNat 2 n ≠ 3 := by
      intro he
      have hnat := congrArg BitVec.toNat he
      simp at hnat
      omega
    exact ⟨by simpa [Instr.wellFormed] using hne, nofun⟩
  all_goals exact ⟨rfl, nofun⟩

/-- A line is nothing or one command. -/
theorem assembleLine_sound {line : List Char} {ws : List CmdWord} (h : assembleLine line = some ws) :
    ∀ w ∈ ws, IsCommandWord w := by
  unfold assembleLine at h
  split at h
  · cases h
    exact fun w hw => nomatch hw
  · obtain ⟨i, hi, rfl⟩ := Option.map_eq_some_iff.mp h
    obtain ⟨hwf, hne⟩ := plainCommand_sound hi
    exact fun w hw => ⟨i, hwf, hne, List.mem_singleton.mp hw⟩
  · obtain ⟨i, hi, rfl⟩ := Option.map_eq_some_iff.mp h
    obtain ⟨n, -, hi⟩ := Option.bind_eq_some_iff.mp hi
    obtain ⟨hwf, hne⟩ := argumentCommand_sound hi
    exact fun w hw => ⟨i, hwf, hne, List.mem_singleton.mp hw⟩
  · cases h

theorem assembleLines_sound {lines : List (List Char)} {ws : List CmdWord} (h : assembleLines lines = some ws) :
    ∀ w ∈ ws, IsCommandWord w := by
  induction lines generalizing ws with
  | nil => cases h; exact fun w hw => nomatch hw
  | cons line rest ih =>
    unfold assembleLines at h
    split at h
    · rename_i first more hfirst hmore
      cases h
      intro w hw
      exact (List.mem_append.mp hw).elim (assembleLine_sound hfirst w) (ih hmore w)
    · cases h

/-- Settles O5, by induction on the lines of the text. -/
theorem assemblerEmitsCanonicalWords : Obligations.AssemblerEmitsCanonicalWords := by
  unfold Obligations.AssemblerEmitsCanonicalWords
  exact fun _ _ w h hw => assembleLines_sound h w hw

end Sys2Proof.Machine
end

section
/-! SUPPORT. What a step does with each kind of presentation (spec/30_encoding.md R65, R66, R75,
spec/70_reset_and_hazards.md R190). -/

namespace Sys2Proof.Machine

theorem step_of_nothing_presented {s : State} (hv : validConfig s.config = true) (hin : s.input = []) :
    step s = .next (s.respond none) := by
  simp only [step, portStep, hv, hin, if_true]

/-- A step takes the next presentation off the input and runs it (R66). -/
theorem step_of_presented {s : State} {p : PortInput} {rest : List PortInput} (hv : validConfig s.config = true)
    (hin : s.input = p :: rest) : step s = runInput p (s.writeInput rest) := by
  simp only [step, portStep, hv, hin, if_true]

theorem runInput_of_reset {p : PortInput} (hrst : p.rst = true) (s : State) :
    runInput p s = .next (applyReset s) := by
  simp only [runInput, hrst, if_true]

theorem runInput_of_idle {p : PortInput} (hrst : p.rst = false) (hvalid : p.cmdValid = false) (s : State) :
    runInput p s = .next (s.respond none) := by
  simp [runInput, hrst, hvalid]

theorem runInput_of_command {p : PortInput} (hrst : p.rst = false) (hvalid : p.cmdValid = true) (s : State) :
    runInput p s = runWord p.cmd s := by
  simp [runInput, hrst, hvalid]

theorem runWord_of_decode {w : CmdWord} {i : Instr} (h : decode w = .ok i) (s : State) : runWord w s = exec i s := by
  simp only [runWord, h]

theorem runWord_of_reserved_exponent {w : CmdWord} (h : decode w = .error .reservedExponent) (s : State) :
    runWord w s = .refused .reservedExponent := by
  simp only [runWord, h]

/-- A presented command word, with neither reset nor idle, is run as a word (R66). -/
theorem step_of_command {s : State} {w : CmdWord} {rest : List PortInput} (hv : validConfig s.config = true)
    (hin : s.input = command w :: rest) : step s = runWord w (s.writeInput rest) :=
  (step_of_presented hv hin).trans (runInput_of_command rfl rfl _)

/-- The three refusals a command can meet: the two reserved encodings, and TICK at a zero threshold (R75, R94). -/
theorem exec_refused_cases {i : Instr} {s : State} {r : Refusal} (h : exec i s = .refused r) :
    (i = .cfg 3 ∧ r = .reservedExponent) ∨ (i = .reserved7 ∧ r = .reservedOpcode) ∨
      (i = .tick ∧ s.thr = 0 ∧ r = .zeroThreshold) := by
  cases i with
  | cfg e =>
    simp only [exec, execCfg] at h
    split at h
    case isTrue he => cases h; exact .inl ⟨by rw [he], rfl⟩
    case isFalse => cases h
  | tick =>
    simp only [exec, execTick] at h
    split at h
    case isTrue => cases h
    case isFalse =>
      split at h
      case isTrue hthr => cases h; exact .inr (.inr ⟨rfl, hthr, rfl⟩)
      case isFalse => cases h
  | reserved7 => cases h; exact .inr (.inl ⟨rfl, rfl⟩)
  | src _ => cases h
  | trig => cases h
  | sync _ => cases h
  | seed _ => cases h
  | lvl => cases h

/-- A TICK in internal mode and not held clocks, and answers `LEVEL` as the clocking leaves it (R110, R114). -/
theorem exec_tick_of_clocking {s : State} (hsynced : s.synced = false) (hext : s.ext = false) (hthr : s.thr ≠ 0) :
    exec .tick s = .next ((clockInternal s).respond (some (clockInternal s).level)) := by
  simp [exec, execTick, hsynced, hext, hthr]

/-- A command answers a next state or a refusal: no fault exists (R170). -/
theorem exec_next_of_not_refused {i : Instr} {s : State} (h : ∀ r, exec i s ≠ .refused r) :
    ∃ t, exec i s = .next t := by
  cases hex : exec i s with
  | next t => exact ⟨t, rfl⟩
  | fault f => cases f
  | refused r => exact absurd hex (h r)

/-- The seven commands complete wherever the threshold is not zero (R170). -/
theorem exec_completes {i : Instr} {s : State} (hwf : i.wellFormed = true) (hne : i ≠ .reserved7)
    (hthr : s.thr ≠ 0) : ∃ t, exec i s = .next t := by
  refine exec_next_of_not_refused fun r hr => ?_
  obtain ⟨rfl, -⟩ | ⟨hi, -⟩ | ⟨-, hzero, -⟩ := exec_refused_cases hr
  · cases hwf
  · exact hne hi
  · exact hthr hzero

/-- Refusing the configuration is the step's own answer, no command's (R6). -/
theorem step_eq_invalidConfiguration_iff (s : State) :
    step s = .refused .invalidConfiguration ↔ validConfig s.config = false := by
  refine ⟨fun h => ?refused, fun h => ?broken⟩
  case broken => simp [step, portStep, h]
  case refused =>
    by_contra hv
    rw [Bool.not_eq_false] at hv
    cases hin : s.input with
    | nil => rw [step_of_nothing_presented hv hin] at h; cases h
    | cons p rest =>
      rw [step_of_presented hv hin, runInput] at h
      split_ifs at h
      rw [runWord] at h
      split at h
      · obtain ⟨-, hr⟩ | ⟨-, hr⟩ | ⟨-, -, hr⟩ := exec_refused_cases h <;> cases hr
      · cases h

/-- Settles O6: the presentation is a command, and its word decodes. -/
theorem stepRunsDecodedCommand : Obligations.StepRunsDecodedCommand := by
  unfold Obligations.StepRunsDecodedCommand
  intro s p rest i hv hin hrst hvalid hdecode
  rw [step_of_presented hv hin, runInput_of_command hrst hvalid, runWord_of_decode hdecode]
  rfl

/-- Settles O7: the placed word is the presentation of the next step, and the later ones are kept. -/
theorem placedWordRunsNext : Obligations.PlacedWordRunsNext := by
  unfold Obligations.PlacedWordRunsNext
  intro s nbits w i hv hword
  have hdecode : decode (portWord nbits w) = .ok i := by
    unfold decodeTableWord at hword
    cases hd : decode (portWord nbits w) with
    | error e => rw [hd] at hword; cases hword
    | ok j => rw [hd] at hword; cases hword; rfl
  have hstep : step (s.withFetchWord nbits w) = runWord (portWord nbits w) _ := step_of_command hv rfl
  rw [hstep, runWord_of_decode hdecode]
  rfl

/-- Settles O8: no presentation left, and a presentation that is not valid. -/
theorem idleStepChangesNoRegister : Obligations.IdleStepChangesNoRegister := by
  unfold Obligations.IdleStepChangesNoRegister
  intro s hv
  refine ⟨fun hin => step_of_nothing_presented hv hin, fun p rest hin hrst hvalid => ?_⟩
  rw [step_of_presented hv hin, runInput_of_idle hrst hvalid]
  rfl

/-- The reset table in an admitted configuration, where the right shifts of R45 fit the width. -/
theorem applyReset_of_valid {s : State} (hv : validConfig s.config = true) :
    applyReset s =
      { state := s.config.resetSeed
        level := 0
        synced := false
        acc := 0
        exp := s.config.resetExp
        thr := s.config.threshBase >>> s.config.resetExp.toNat
        sel := s.config.resetSel
        inc := if s.config.resetSel = 3 then s.config.incBase else s.config.incBase >>> s.config.resetSel.toNat
        ext := decide (s.config.resetSel = 3)
        resp := none
        input := s.input
        config := s.config } := by
  rw [applyReset_spec, ← thresholdAt_of_valid hv, ← resetIncrement_of_valid hv]
  rfl

/-- Settles O9: reset comes before any command, and loads the table. -/
theorem resetStepLoadsResetValues : Obligations.ResetStepLoadsResetValues := by
  unfold Obligations.ResetStepLoadsResetValues
  intro s p rest hv hin hrst
  rw [step_of_presented hv hin, runInput_of_reset hrst]
  exact congrArg Host.Outcome.next (applyReset_of_valid (s := s.writeInput rest) hv)

theorem step_of_opcode_seven {s : State} {w : CmdWord} {rest : List PortInput} (hv : validConfig s.config = true)
    (hin : s.input = command w :: rest) (hop : opField w = 7) : step s = .refused .reservedOpcode := by
  rw [step_of_command hv hin, runWord_of_decode (decode_eq_reserved7_iff.mpr hop)]
  rfl

theorem step_of_reserved_exponent {s : State} {w : CmdWord} {rest : List PortInput}
    (hv : validConfig s.config = true) (hin : s.input = command w :: rest) (hop : opField w = 0)
    (harg : 2 < argField w) : step s = .refused .reservedExponent := by
  rw [step_of_command hv hin, runWord_of_reserved_exponent (decode_eq_error_iff.mpr ⟨hop, harg⟩)]

/-- Settles O10: a reserved word decodes to the reserved row or not at all. -/
theorem reservedWordsRefused : Obligations.ReservedWordsRefused := by
  unfold Obligations.ReservedWordsRefused
  exact ⟨fun s w rest hv hin => ⟨step_of_opcode_seven hv hin, step_of_reserved_exponent hv hin⟩,
    fun s => ⟨rfl, rfl⟩⟩

/-- Settles O12: a step names its configuration exactly where one constraint of R5 and R6 fails. -/
theorem brokenConfigurationRefused : Obligations.BrokenConfigurationRefused := by
  unfold Obligations.BrokenConfigurationRefused
  intro s
  rw [step_eq_invalidConfiguration_iff, ← Bool.not_eq_true, validConfig_iff]
  simp only [not_and_or, not_le, not_lt, ne_eq, not_not]

/-- A step keeps the configuration and takes one presentation off the input (R43, R66). -/
theorem step_keeps_model_fields {s t : State} (h : step s = .next t) :
    t.config = s.config ∧ t.input = s.input.drop 1 := by
  obtain ⟨-, ⟨hin, rfl⟩ | ⟨p, rest, hin, hcase⟩⟩ := step_next_cases h
  · simp [hin]
  · rw [hin]
    obtain ⟨-, rfl⟩ | ⟨-, -, rfl⟩ | ⟨-, -, i, -, hex⟩ := hcase
    · exact ⟨rfl, rfl⟩
    · exact ⟨rfl, rfl⟩
    · exact exec_keeps_model_fields hex

/-- Settles O13, by induction on the number of steps. -/
theorem runsKeepTheConfiguration : Obligations.RunsKeepTheConfiguration := by
  unfold Obligations.RunsKeepTheConfiguration
  intro k
  induction k with
  | zero => intro s t h; rw [next_inj h]; exact ⟨rfl, rfl⟩
  | succ k ih =>
    intro s t h
    obtain ⟨s', hstep, hrun⟩ := run_succ_next h
    obtain ⟨hconfig, hinput⟩ := step_keeps_model_fields hstep
    obtain ⟨hconfig', hinput'⟩ := ih s' t hrun
    exact ⟨hconfig'.trans hconfig, by rw [hinput', hinput, List.drop_drop, Nat.add_comm]⟩

end Sys2Proof.Machine
end

section
/-! SUPPORT. The invariant of R35 and R36: it holds at reset, every write a command makes keeps it, and so every step
and every run does (spec/10_state.md R35, R36, R45). -/

namespace Sys2Proof.Machine

@[simp] theorem safeState_respond {s : State} {r : Option Bit} : SafeState (s.respond r) ↔ SafeState s := Iff.rfl

@[simp] theorem safeState_writeInput {s : State} {l : List PortInput} : SafeState (s.writeInput l) ↔ SafeState s :=
  Iff.rfl

@[simp] theorem safeState_writeState {s : State} {v : Word32} : SafeState (s.writeState v) ↔ SafeState s := Iff.rfl

@[simp] theorem safeState_update {s : State} : SafeState (update s) ↔ SafeState s := Iff.rfl

@[simp] theorem safeState_iterate_update {s : State} {n : Nat} : SafeState (update^[n] s) ↔ SafeState s := by
  rw [iterate_update_frame n s]

/-- Any phase up to the threshold is safe, and while held only zero (R35 (4), R36). -/
theorem SafeState.after_writeAcc {s : State} (h : SafeState s) {v : Nat} (hle : v ≤ s.thr)
    (hheld : s.synced = true → v = 0) : SafeState (s.writeAcc v) := by
  obtain ⟨hv, htier, hthr, hinc, -, hext, -, hincLe⟩ := h
  exact ⟨hv, htier, hthr, hinc, hheld, hext, hle, hincLe⟩

theorem SafeState.valid {s : State} (h : SafeState s) : validConfig s.config = true := by
  obtain ⟨hv, -⟩ := h
  exact hv

theorem SafeState.exp_ne_three {s : State} (h : SafeState s) : s.exp ≠ 3 := by
  obtain ⟨-, htier, -⟩ := h
  exact htier

theorem SafeState.thr_eq {s : State} (h : SafeState s) : s.thr = s.config.threshBase >>> s.exp.toNat := by
  obtain ⟨-, -, ⟨hthr, -⟩, -⟩ := h
  exact hthr

theorem SafeState.thr_pos {s : State} (h : SafeState s) : 0 < s.thr := by
  obtain ⟨-, -, ⟨-, hne⟩, -⟩ := h
  exact Nat.pos_of_ne_zero hne

theorem SafeState.acc_le {s : State} (h : SafeState s) : s.acc ≤ s.thr := by
  obtain ⟨-, -, -, -, -, -, hacc, -⟩ := h
  exact hacc

theorem SafeState.inc_le {s : State} (h : SafeState s) : s.inc ≤ s.config.incBase := by
  obtain ⟨-, -, -, -, -, -, -, hinc⟩ := h
  exact hinc

/-- The threshold and the base increment together fit the width (R6, R36). -/
theorem SafeState.thr_add_incBase_lt {s : State} (h : SafeState s) :
    s.thr + s.config.incBase < 2 ^ s.config.accW := by
  obtain ⟨-, -, hbases, -⟩ := validConfig_iff.mp h.valid
  have hle := shiftRight_le s.config.threshBase s.exp.toNat
  rw [h.thr_eq]
  omega

/-- In a safe state the addition of TICK does not wrap (R36). -/
theorem SafeState.acc_add_inc_lt {s : State} (h : SafeState s) : s.acc + s.inc < 2 ^ s.config.accW := by
  have hbases := h.thr_add_incBase_lt
  have hacc := h.acc_le
  have hinc := h.inc_le
  omega

theorem SafeState.addW_eq {s : State} (h : SafeState s) : addW s.config s.acc s.inc = s.acc + s.inc :=
  narrow_of_lt h.acc_add_inc_lt

/-- The internal clocking of TICK in a safe state: whole updates, and the remainder as the new phase (R112). -/
theorem SafeState.clockInternal_eq {s : State} (h : SafeState s) :
    clockInternal s = (update^[(s.acc + s.inc) / s.thr] s).writeAcc ((s.acc + s.inc) % s.thr) := by
  rw [clockInternal_spec s h.thr_pos, h.addW_eq]

theorem SafeState.after_clockInternal {s : State} (h : SafeState s) (hnot : s.synced = false) :
    SafeState (clockInternal s) := by
  have hupdated : SafeState (update^[(s.acc + s.inc) / s.thr] s) := safeState_iterate_update.mpr h
  rw [h.clockInternal_eq]
  refine hupdated.after_writeAcc ?_ ?_ <;> rw [iterate_update_frame]
  · exact (Nat.mod_lt _ h.thr_pos).le
  · exact fun hheld => absurd (hheld.symm.trans hnot) (by decide)

/-- CFG forces the threshold of its exponent and rescales the phase under it (R35 (1), R91, R92). -/
theorem SafeState.after_configure {s : State} (h : SafeState s) {e : BitVec 2} (he : e ≠ 3) :
    SafeState (configure e s) := by
  obtain ⟨hv, -, ⟨hthr, -⟩, hinc, hheld, hext, hacc, hincLe⟩ := h
  rw [hthr] at hacc
  obtain ⟨hrescale, hle⟩ := rescale_spec hv (new := e) hacc
  have hthr' : thresholdAt s.config e = s.config.threshBase >>> e.toNat := thresholdAt_of_valid hv e
  refine ⟨hv, he, ⟨hthr', hthr'.trans_ne (threshold_pos hv he).ne'⟩, hinc, fun hs => ?_, hext,
    hle.trans_eq hthr'.symm, hincLe⟩
  have hzero : s.acc = 0 := hheld hs
  rw [configure_acc, hrescale, hzero]
  simp

/-- SRC forces the increment and the external flag of its selector (R35 (2), R35 (5)). -/
theorem SafeState.after_selectSource {s : State} (h : SafeState s) (m : BitVec 2) :
    SafeState (selectSource m s) := by
  obtain ⟨hv, htier, hthr, -, hheld, -, hacc, hincLe⟩ := h
  rw [selectSource_spec]
  split
  case isTrue external =>
    exact ⟨hv, htier, hthr, fun hsel => absurd rfl hsel, hheld, ⟨fun _ => rfl, fun _ => rfl⟩, hacc, hincLe⟩
  case isFalse internal =>
    have hinc : incrementAt s.config m = s.config.incBase >>> m.toNat := incrementAt_of_valid hv m
    exact ⟨hv, htier, hthr, fun _ => hinc, hheld, ⟨nofun, fun hsel => absurd hsel internal⟩, hacc,
      hinc.trans_le (shiftRight_le _ _)⟩

/-- SYNC 1 clears the phase as it holds, SYNC 0 only releases (R35 (4)). -/
theorem SafeState.after_hold {s : State} (h : SafeState s) (active : Bool) : SafeState (hold active s) := by
  obtain ⟨hv, htier, hthr, hinc, -, hext, hacc, hincLe⟩ := h
  cases active with
  | true => exact ⟨hv, htier, hthr, hinc, fun _ => rfl, hext, Nat.zero_le _, hincLe⟩
  | false => exact ⟨hv, htier, hthr, hinc, nofun, hext, hacc, hincLe⟩

theorem safeState_resetWith {c : Config} (hv : validConfig c = true) : SafeState (State.resetWith c) := by
  obtain ⟨-, -, -, -, htier⟩ := validConfig_iff.mp hv
  have hthr : thresholdAt c c.resetExp = c.threshBase >>> c.resetExp.toNat := thresholdAt_of_valid hv _
  have hinc := resetIncrement_of_valid hv
  refine ⟨hv, htier, ⟨hthr, hthr.trans_ne (threshold_pos hv htier).ne'⟩, fun hsel => ?increment, fun _ => rfl,
    ?external, Nat.zero_le _, ?bounded⟩
  case increment => exact hinc.trans (if_neg hsel)
  case external => exact beq_iff_eq
  case bounded =>
    refine hinc.trans_le ?_
    split
    · exact le_refl _
    · exact shiftRight_le _ _

/-- Every command that completes keeps the invariant (R35, R36). -/
theorem SafeState.after_exec {i : Instr} {s t : State} (h : SafeState s) (hex : exec i s = .next t) : SafeState t := by
  obtain ⟨e, -, he, rfl⟩ | ⟨sel, -, rfl⟩ | ⟨-, -, rfl⟩ | ⟨-, hclocks, -, rfl⟩ | ⟨-, -, rfl⟩ | ⟨-, -, rfl⟩ |
    ⟨active, -, rfl⟩ | ⟨v, -, rfl⟩ | ⟨-, rfl⟩ := exec_next_cases hex
  · exact h.after_configure he
  · exact h.after_selectSource _
  · exact h
  · exact h.after_clockInternal (Bool.or_eq_false_iff.mp hclocks).1
  · exact h
  · exact h
  · exact h.after_hold active
  · exact h
  · exact h

/-- Every step keeps the invariant, a reset included (R35, R36, R45). -/
theorem SafeState.after_step {s t : State} (h : SafeState s) (hstep : step s = .next t) : SafeState t := by
  obtain ⟨hv, ⟨-, rfl⟩ | ⟨p, rest, -, ⟨-, rfl⟩ | ⟨-, -, rfl⟩ | ⟨-, -, i, -, hex⟩⟩⟩ := step_next_cases hstep
  · exact h
  · rw [applyReset_spec]
    exact safeState_writeInput.mpr (safeState_resetWith hv)
  · exact h
  · exact SafeState.after_exec (safeState_writeInput.mpr h) hex

/-- A command word the host may present decodes to a command that completes (R75, R185 (a)). -/
theorem exists_decode_of_admitted {p : PortInput} (h : p.admitted = true) (hrst : p.rst = false)
    (hvalid : p.cmdValid = true) : ∃ i, decode p.cmd = .ok i ∧ i ≠ .reserved7 := by
  unfold PortInput.admitted at h
  cases hd : decode p.cmd with
  | ok i => exact ⟨i, rfl, by simpa [hrst, hvalid, hd] using h⟩
  | error e => simp [hrst, hvalid, hd] at h

/-- A safe state steps on whatever the host may present (R170). -/
theorem SafeState.step_completes {s : State} (h : SafeState s) (hin : ∀ p ∈ s.input, p.admitted = true) :
    ∃ t, step s = .next t := by
  cases hl : s.input with
  | nil => exact ⟨_, step_of_nothing_presented h.valid hl⟩
  | cons p rest =>
    rw [step_of_presented h.valid hl]
    cases hrst : p.rst with
    | true => exact ⟨_, runInput_of_reset hrst _⟩
    | false =>
      cases hvalid : p.cmdValid with
      | false => exact ⟨_, runInput_of_idle hrst hvalid _⟩
      | true =>
        have hp : p.admitted = true := hin p (by simp [hl])
        obtain ⟨i, hdecode, hne⟩ := exists_decode_of_admitted hp hrst hvalid
        rw [runInput_of_command hrst hvalid, runWord_of_decode hdecode]
        exact exec_completes (decode_wellFormed hdecode) hne h.thr_pos.ne'

/-- Settles O18: reset meets the invariant, and every write a command makes keeps it. -/
theorem stepKeepsInvariant : Obligations.StepKeepsInvariant := by
  unfold Obligations.StepKeepsInvariant
  exact fun _ _ h hstep => h.after_step hstep

/-- Settles O19, by induction on the number of steps: a safe state steps, to a safe state with admitted presentations
left. -/
theorem admittedRunsNeverStop : Obligations.AdmittedRunsNeverStop := by
  unfold Obligations.AdmittedRunsNeverStop
  intro k
  induction k with
  | zero => exact fun s h _ => ⟨s, run_zero s, h⟩
  | succ k ih =>
    intro s h hin
    obtain ⟨s', hstep⟩ := h.step_completes hin
    obtain ⟨-, hrest⟩ := step_keeps_model_fields hstep
    have hin' : ∀ p ∈ s'.input, p.admitted = true := fun p hp => hin p (List.mem_of_mem_drop (hrest ▸ hp))
    obtain ⟨t, hrun, ht⟩ := ih s' (h.after_step hstep) hin'
    exact ⟨t, (run_succ_of_next hstep).trans hrun, ht⟩

/-- Settles O20: a safe state has a threshold, so none of the seven commands is refused. -/
theorem commandsAreTotal : Obligations.CommandsAreTotal := by
  unfold Obligations.CommandsAreTotal
  intro i s h hwf hne
  obtain ⟨t, hex⟩ := exec_completes hwf hne h.thr_pos.ne'
  exact ⟨t, hex, h.after_exec hex⟩

/-- Settles O11: of the nine rows of the decoder only the two reserved ones do not complete in a safe state. -/
theorem onlyReservedWordsRefused : Obligations.OnlyReservedWordsRefused := by
  unfold Obligations.OnlyReservedWordsRefused
  intro s w rest h hin
  refine ⟨?onlyReserved, ?reserved⟩
  case reserved =>
    rintro (hop | ⟨hop, harg⟩)
    · exact ⟨_, step_of_opcode_seven h.valid hin hop⟩
    · exact ⟨_, step_of_reserved_exponent h.valid hin hop harg⟩
  case onlyReserved =>
    rintro ⟨r, hr⟩
    rw [step_of_command h.valid hin] at hr
    cases hd : decode w with
    | error e => cases e; exact .inr (decode_eq_error_iff.mp hd)
    | ok i =>
      rw [runWord_of_decode hd] at hr
      obtain ⟨rfl, -⟩ | ⟨rfl, -⟩ | ⟨-, hzero, -⟩ := exec_refused_cases hr
      · exact absurd (decode_wellFormed hd) (by decide)
      · exact .inl (decode_eq_reserved7_iff.mp hd)
      · exact absurd hzero h.thr_pos.ne'

/-- Settles O21: the sum of the two bases fits the width, and a clocking TICK leaves a remainder of `THR`. -/
theorem registersFitTheirWidth : Obligations.RegistersFitTheirWidth := by
  unfold Obligations.RegistersFitTheirWidth
  intro s h
  have hsum := h.acc_add_inc_lt
  have hbases := h.thr_add_incBase_lt
  refine ⟨by omega, by omega, by omega, hsum, fun t hsynced hext hex => ?_⟩
  rw [exec_tick_of_clocking hsynced hext h.thr_pos.ne', h.clockInternal_eq] at hex
  rw [← next_inj hex, iterate_update_frame]
  exact Nat.mod_lt _ h.thr_pos

theorem validConfig_default (v : Variant) : validConfig (Config.default v) = true := by
  cases v <;> decide

/-- Settles O17. -/
theorem everyResetStateMeetsInvariant : Obligations.EveryResetStateMeetsInvariant := by
  unfold Obligations.EveryResetStateMeetsInvariant
  exact fun _ hv => safeState_resetWith hv

/-- Settles O16: the defaults are an admitted configuration, whichever variant the build has. -/
theorem resetMeetsInvariant : Obligations.ResetMeetsInvariant := by
  unfold Obligations.ResetMeetsInvariant
  exact safeState_resetWith (validConfig_default _)

/-- Settles O14, by evaluating the reset table at the defaults. -/
theorem resetRegisters : Obligations.ResetRegisters := by
  unfold Obligations.ResetRegisters
  exact ⟨validConfig_default, rfl⟩

end Sys2Proof.Machine
end

section
/-! SUPPORT. CFG: the registers it writes, its rescale up, down and back, and the granularity of the phase
(spec/40_config.md R90 to R96). -/

namespace Sys2Proof.Machine

/-- The one thing CFG can do at a legal exponent (R90). -/
theorem exec_cfg {e : BitVec 2} (he : e ≠ 3) (s : State) :
    exec (.cfg e) s = .next ((configure e s).respond none) := if_neg he

theorem exec_cfg_next {e : BitVec 2} {s t : State} (h : exec (.cfg e) s = .next t) :
    e ≠ 3 ∧ t = (configure e s).respond none := by
  have he : e ≠ 3 := by rintro rfl; cases h
  rw [exec_cfg he] at h
  exact ⟨he, (next_inj h).symm⟩

/-- One command as a list is that command. -/
@[simp] theorem execAll_singleton (i : Instr) (s : State) : execAll [i] s = exec i s := by
  rw [execAll]
  cases exec i s <;> rfl

theorem SafeState.acc_le_threshold {s : State} (h : SafeState s) :
    s.acc ≤ s.config.threshBase >>> s.exp.toNat := h.acc_le.trans_eq h.thr_eq

/-- A rescale to the same exponent changes nothing (R95). -/
@[simp] theorem rescale_same (c : Config) (e : BitVec 2) (acc : Nat) : rescale c e e acc = acc := by
  simp [rescale]

/-- A rescale to a smaller exponent multiplies exactly (R91). -/
theorem rescale_of_lt {c : Config} (hv : validConfig c = true) {old new : BitVec 2} {acc : Nat}
    (hacc : acc ≤ c.threshBase >>> old.toNat) (hlt : new < old) :
    rescale c old new acc = acc * 2 ^ (old.toNat - new.toNat) :=
  (rescale_spec hv hacc).1.trans (if_pos hlt)

/-- A rescale to a larger exponent divides, rounding down (R92); no width bounds it. -/
theorem rescale_of_gt (c : Config) {old new : BitVec 2} (acc : Nat) (hlt : old < new) :
    rescale c old new acc = acc / 2 ^ (new.toNat - old.toNat) := by
  rw [rescale, if_neg (BitVec.lt_asymm hlt), if_pos hlt, Nat.shiftRight_eq_div_pow]

/-- A rescale and its inverse lose the bits a right shift drops, and no others (R96). -/
theorem rescale_rescale {c : Config} (hv : validConfig c = true) {old new : BitVec 2} {acc : Nat}
    (hacc : acc ≤ c.threshBase >>> old.toNat) :
    rescale c new old (rescale c old new acc) =
      if old < new then (acc >>> (new.toNat - old.toNat)) <<< (new.toNat - old.toNat) else acc := by
  obtain ⟨-, hle⟩ := rescale_spec hv (new := new) hacc
  rcases BitVec.lt_trichotomy old new with hlt | rfl | hgt
  · rw [rescale_of_lt hv hle hlt, rescale_of_gt c acc hlt, if_pos hlt, Nat.shiftLeft_eq, Nat.shiftRight_eq_div_pow]
  · simp
  · rw [rescale_of_gt c _ hgt, rescale_of_lt hv hacc hgt, if_neg (BitVec.lt_asymm hgt)]
    exact Nat.mul_div_cancel _ (Nat.two_pow_pos _)

@[simp] theorem respond_respond (s : State) (q r : Option Bit) : (s.respond q).respond r = s.respond r := rfl

/-- CFG neither reads nor writes the response (R90). -/
theorem configure_respond (e : BitVec 2) (s : State) (r : Option Bit) :
    configure e (s.respond r) = (configure e s).respond r := rfl

/-- Settles O22: the registers CFG writes, with the threshold as a plain right shift in an admitted configuration. -/
theorem cfgResult : Obligations.CfgResult := by
  unfold Obligations.CfgResult
  refine ⟨fun e s he hv => ⟨rfl, ?_, ?_⟩, fun arg => decode_wordOf_cfg_reserved, fun s => rfl,
    fun v s hc hexp hacc => ?worked⟩
  · exact decode_encode (i := .cfg e) (by simpa [Instr.wellFormed] using he)
  · rw [exec_cfg he, ← thresholdAt_of_valid hv]
    rfl
  case worked =>
    have hrescale : rescale s.config s.exp 0 s.acc = 120832000 := by rw [hc, hexp, hacc]; rfl
    have hthr : thresholdAt s.config 0 = 180633600 := by rw [hc]; rfl
    rw [exec_cfg (by decide), configure, hrescale, hthr]
    rfl

/-- Settles O23: the three cases of the rescale, and its bound. -/
theorem cfgRescaleIsExact : Obligations.CfgRescaleIsExact := by
  unfold Obligations.CfgRescaleIsExact
  intro e s t h hex
  obtain ⟨-, rfl⟩ := exec_cfg_next hex
  have hthr : thresholdAt s.config e = s.config.threshBase >>> e.toNat := thresholdAt_of_valid h.valid e
  obtain ⟨-, hle⟩ := rescale_spec h.valid (new := e) h.acc_le_threshold
  refine ⟨fun hlt => rescale_of_lt h.valid h.acc_le_threshold hlt, fun hgt => rescale_of_gt _ _ hgt, ?same,
    hle.trans_eq hthr.symm, hthr⟩
  case same =>
    rintro rfl
    rw [configure, rescale_same, thresholdAt_of_valid h.valid, ← h.thr_eq]
    rfl

/-- CFG to a tier and back writes only `ACC`, with what its two rescales leave (R96). -/
theorem SafeState.configure_configure {s : State} (h : SafeState s) (e : BitVec 2) :
    configure s.exp (configure e s) = s.writeAcc
      (if s.exp < e then (s.acc >>> (e.toNat - s.exp.toNat)) <<< (e.toNat - s.exp.toNat) else s.acc) := by
  rw [configure, configure_config, configure_exp, configure_acc, rescale_rescale h.valid h.acc_le_threshold,
    thresholdAt_of_valid h.valid, ← h.thr_eq]
  simp only [configure, State.writeAcc, State.writeExp, State.writeThr]

/-- Settles O24: the two CFGs together write `ACC` only. -/
theorem cfgRoundTrip : Obligations.CfgRoundTrip := by
  unfold Obligations.CfgRoundTrip
  intro e s h he
  rw [execAll_cons_of_next (exec_cfg he s), execAll_singleton, exec_cfg h.exp_ne_three, configure_respond,
    h.configure_configure]
  rfl

/-- The phase is a multiple of `2^(11 - EXP)`: what R92 says of the default parameters. -/
def PhaseGranular (s : State) : Prop := 2 ^ (11 - s.exp.toNat) ∣ s.acc

/-- CFG keeps the granularity: a left shift multiplies it in, a right shift divides it out. -/
theorem PhaseGranular.after_configure {s : State} (hg : PhaseGranular s) (h : SafeState s) {e : BitVec 2}
    (he : e ≠ 3) : PhaseGranular (configure e s) := by
  have hexp := toNat_le_two h.exp_ne_three
  have hnew := toNat_le_two he
  unfold PhaseGranular at hg ⊢
  rw [configure_exp, configure_acc]
  rcases BitVec.lt_trichotomy s.exp e with hlt | rfl | hgt
  · have hpow : 2 ^ (11 - s.exp.toNat) = 2 ^ (e.toNat - s.exp.toNat) * 2 ^ (11 - e.toNat) := by
      rw [BitVec.lt_def] at hlt
      rw [← Nat.pow_add]
      congr 1
      omega
    rw [rescale_of_gt _ _ hlt]
    exact Nat.dvd_div_of_mul_dvd (hpow ▸ hg)
  · rwa [rescale_same]
  · have hpow : 2 ^ (11 - e.toNat) = 2 ^ (11 - s.exp.toNat) * 2 ^ (s.exp.toNat - e.toNat) := by
      rw [BitVec.lt_def] at hgt
      rw [← Nat.pow_add]
      congr 1
      omega
    rw [rescale_of_lt h.valid h.acc_le_threshold hgt, hpow]
    exact Nat.mul_dvd_mul_right hg _

/-- No right shift by up to two brings the default bases below the granularity (R92). -/
theorem default_bases_granular {n : Nat} (hn : n ≤ 2) : 2 ^ 11 ∣ 180633600 >>> n ∧ 2 ^ 11 ∣ 128000000 >>> n := by
  obtain rfl | rfl | rfl : n = 0 ∨ n = 1 ∨ n = 2 := by omega
  all_goals decide

/-- With the default bases the increment and the threshold are multiples of the granularity, so TICK keeps it. -/
theorem PhaseGranular.after_clockInternal {s : State} (hg : PhaseGranular s) (h : SafeState s) {v : Variant}
    (hc : s.config = Config.default v) (hext : s.ext = false) : PhaseGranular (clockInternal s) := by
  have hdvd : 2 ^ (11 - s.exp.toNat) ∣ 2 ^ 11 := Nat.pow_dvd_pow 2 (Nat.sub_le 11 _)
  rw [h.clockInternal_eq, iterate_update_frame]
  obtain ⟨-, -, -, hinc, -, hexternal, -⟩ := id h
  have hsel : s.sel ≠ 3 := fun hs => by rw [hexternal.mpr hs] at hext; cases hext
  have hthr' : 2 ^ (11 - s.exp.toNat) ∣ s.thr := by
    rw [h.thr_eq, hc]
    exact hdvd.trans (default_bases_granular (toNat_le_two h.exp_ne_three)).1
  have hinc' : 2 ^ (11 - s.exp.toNat) ∣ s.inc := by
    rw [hinc hsel, hc]
    exact hdvd.trans (default_bases_granular (toNat_le_two hsel)).2
  exact (Nat.dvd_mod_iff hthr').mpr (hg.add hinc')

theorem PhaseGranular.after_exec {i : Instr} {s t : State} (hg : PhaseGranular s) (h : SafeState s) {v : Variant}
    (hc : s.config = Config.default v) (hex : exec i s = .next t) : PhaseGranular t := by
  obtain ⟨e, -, he, rfl⟩ | ⟨sel, -, rfl⟩ | ⟨-, -, rfl⟩ | ⟨-, hclocks, -, rfl⟩ | ⟨-, -, rfl⟩ | ⟨-, -, rfl⟩ |
    ⟨active, -, rfl⟩ | ⟨x, -, rfl⟩ | ⟨-, rfl⟩ := exec_next_cases hex
  · exact hg.after_configure h he
  · rw [selectSource_spec]
    split <;> exact hg
  · exact hg
  · exact hg.after_clockInternal h hc (Bool.or_eq_false_iff.mp hclocks).2
  · exact hg
  · exact hg
  · cases active with
    | true => exact Nat.dvd_zero _
    | false => exact hg
  · exact hg
  · exact hg

/-- Settles O25: every command keeps the granularity, a reset clears the phase; and a right shift by up to two places
drops no bit of such a phase. -/
theorem defaultPhaseGranularity : Obligations.DefaultPhaseGranularity := by
  unfold Obligations.DefaultPhaseGranularity
  intro v s hc h hg
  refine ⟨fun t hstep => ?step, fun e t hlt hex => ?exact⟩
  case step =>
    obtain ⟨-, ⟨-, rfl⟩ | ⟨p, rest, -, ⟨-, rfl⟩ | ⟨-, -, rfl⟩ | ⟨-, -, i, -, hex⟩⟩⟩ := step_next_cases hstep
    · exact hg
    · exact Nat.dvd_zero _
    · exact hg
    · exact PhaseGranular.after_exec (s := s.writeInput rest) hg h hc hex
  case exact =>
    obtain ⟨he, rfl⟩ := exec_cfg_next hex
    have hnew := toNat_le_two he
    have hdvd : 2 ^ (e.toNat - s.exp.toNat) ∣ s.acc := (Nat.pow_dvd_pow 2 (by omega)).trans hg
    rw [respond_acc, configure_acc, rescale_of_gt _ _ hlt]
    exact Nat.div_mul_cancel hdvd

end Sys2Proof.Machine
end

section
/-! SUPPORT. SRC: the registers it writes, and SRC next to another SRC or CFG (spec/40_config.md R100 to R105,
spec/70_reset_and_hazards.md R195). -/

namespace Sys2Proof.Machine

@[simp] theorem selectSource_config (m : BitVec 2) (s : State) : (selectSource m s).config = s.config := by
  rw [selectSource_spec]
  split <;> rfl

/-- SRC neither reads nor writes the response (R100). -/
theorem selectSource_respond (m : BitVec 2) (s : State) (r : Option Bit) :
    selectSource m (s.respond r) = (selectSource m s).respond r := by
  rw [selectSource_spec, selectSource_spec]
  split <;> rfl

/-- Settles O26: the two cases of SRC's writes, and the base increment as a plain right shift. -/
theorem srcResult : Obligations.SrcResult := by
  unfold Obligations.SrcResult
  refine ⟨fun sel s hv => ⟨rfl, decode_wordOf_src sel, ?_⟩, fun v s hc => ⟨by decide, ?_, ?_⟩⟩
  · rw [exec_src, selectSource_spec]
    by_cases hsel : maskSel sel = 3
    · rw [if_pos hsel, if_pos ((maskSel_eq_three sel).mp hsel)]
      rfl
    · rw [if_neg hsel, if_neg (mt (maskSel_eq_three sel).mpr hsel), incrementAt_of_valid hv, toNat_masked]
      rfl
  · exact exec_src_congr (by decide) s
  · have hmask : maskSel 5 = 1 := by decide
    have hinc : incrementAt s.config 1 = 64000000 := by
      rw [hc, incrementAt_of_valid (validConfig_default v)]
      simp [Config.default]
    rw [exec_src, selectSource_spec, hmask, if_neg (by decide), hinc]
    rfl

/-- A second SRC into internal mode overwrites all that the first wrote (R105). -/
theorem selectSource_selectSource_internal {b : BitVec 2} (hb : b ≠ 3) (a : BitVec 2) (s : State) :
    selectSource b (selectSource a s) = selectSource b s := by
  rw [selectSource_spec b, selectSource_spec b, if_neg hb, if_neg hb, selectSource_config, selectSource_spec a]
  split <;> rfl

/-- A second SRC into external mode leaves the increment of the first (R102, R105). -/
theorem selectSource_selectSource_external (a : BitVec 2) (s : State) :
    selectSource 3 (selectSource a s) = (selectSource 3 s).writeInc (selectSource a s).inc := by
  rw [selectSource_spec 3, selectSource_spec 3, if_pos rfl, if_pos rfl, selectSource_spec a]
  split <;> rfl

/-- Settles O28: the second SRC writes `SEL` and `EXT`, and `INC` unless it selects external mode. -/
theorem lastSrcWins : Obligations.LastSrcWins := by
  unfold Obligations.LastSrcWins
  intro a b s
  rw [execAll_cons_of_next (exec_src a s), execAll_singleton, exec_src, exec_src, selectSource_respond,
    respond_respond]
  refine ⟨fun hb => ?internal, fun hb => ?external⟩
  case internal =>
    have hm : maskSel b ≠ 3 := mt (maskSel_eq_three b).mp hb
    rw [selectSource_selectSource_internal hm]
  case external =>
    refine ⟨_, _, exec_src a s, rfl, ?_⟩
    rw [(maskSel_eq_three b).mpr hb, selectSource_selectSource_external]
    rfl

/-- CFG and SRC write different registers, and neither reads one the other writes (R195). -/
theorem configure_selectSource (e m : BitVec 2) (s : State) :
    configure e (selectSource m s) = selectSource m (configure e s) := by
  rw [selectSource_spec, selectSource_spec]
  split <;> rfl

/-- Settles O29: both orders make the same writes. -/
theorem cfgAndSrcCommute : Obligations.CfgAndSrcCommute := by
  unfold Obligations.CfgAndSrcCommute
  intro e sel s he
  refine ⟨(selectSource (maskSel sel) (configure e s)).respond none, ?_, ?_⟩
  · rw [execAll_cons_of_next (exec_cfg he s), execAll_singleton, exec_src, selectSource_respond, respond_respond]
  · rw [execAll_cons_of_next (exec_src sel s), execAll_singleton, exec_cfg he, configure_respond,
      respond_respond, configure_selectSource]

end Sys2Proof.Machine
end

section
/-! SUPPORT. TICK: its loop, its closed form and its bound, and the accumulator over any number of TICKs
(spec/41_clocking.md R110 to R116). -/

namespace Sys2Proof.Machine

/-- TICK's loop with enough fuel is the loop of the pseudocode, run to its exit (R110). -/
theorem loopRun_catchUp {n : Nat} {s : State} (hpos : 0 < s.thr) (hn : s.acc / s.thr ≤ n) :
    LoopRun s (catchUp n s) := by
  induction n generalizing s with
  | zero => exact .exit s ((Nat.div_eq_zero_iff_lt hpos).mp (Nat.le_zero.mp hn))
  | succ n ih =>
    rw [catchUp]
    split
    case isTrue hle =>
      have hfuel : (s.acc - s.thr) / s.thr ≤ n := by
        rw [Nat.div_eq_sub_div hpos hle] at hn
        omega
      exact .pass s _ hle (ih (s := update (s.writeAcc (s.acc - s.thr))) hpos hfuel)
    case isFalse hlt => exact .exit s (not_le.mp hlt)

/-- The internal clocking writes `ACC`, `STATE` and `LEVEL` only (R110). -/
theorem clockInternal_frame {s : State} (hpos : 0 < s.thr) :
    clockInternal s =
      { s with
        acc := (clockInternal s).acc, state := (clockInternal s).state, level := (clockInternal s).level } := by
  rw [clockInternal_spec s hpos, iterate_update_frame]
  rfl

/-- A sum that does not reach `THR` causes no update (R110). -/
theorem clockInternal_of_lt {s : State} (hlt : addW s.config s.acc s.inc < s.thr) :
    clockInternal s = s.writeAcc (addW s.config s.acc s.inc) := by
  rw [clockInternal_spec s (Nat.zero_lt_of_lt hlt), Nat.div_eq_of_lt hlt, Nat.mod_eq_of_lt hlt]
  rfl

/-- Settles O30: the fuel of TICK is enough for the loop of the pseudocode; the example is one update. -/
theorem tickRunsTheLoop : Obligations.TickRunsTheLoop := by
  unfold Obligations.TickRunsTheLoop
  refine ⟨⟨decode_wordOf_tick, by decide⟩, fun s hnot => ?idle, fun s hsynced hext hthr => ?clocks,
    fun v s hc hsynced hext hthr hinc hacc => ?worked⟩
  case idle =>
    refine exec_tick_of_held_or_external ?_
    rwa [not_and_or, Bool.not_eq_false, Bool.not_eq_false] at hnot
  case clocks =>
    have hpos : 0 < s.thr := Nat.pos_of_ne_zero hthr
    refine ⟨clockInternal s, ?_, exec_tick_of_clocking hsynced hext hthr, clockInternal_frame hpos, fun hlt => ?_⟩
    · exact loopRun_catchUp (s := s.writeAcc (addW s.config s.acc s.inc)) hpos le_rfl
    · rw [clockInternal_of_lt hlt]
      exact ⟨rfl, rfl⟩
  case worked =>
    have hsum : addW s.config s.acc s.inc = 256000000 := by rw [hc, hacc, hinc]; rfl
    have hclock : clockInternal s = (update s).writeAcc 75366400 := by
      rw [clockInternal_spec s (by omega), hsum, hthr]
      rfl
    rw [exec_tick_of_clocking hsynced hext (by omega), hclock]
    rfl

/-- A clocking TICK in closed form: whole updates, and the remainder as the new phase (R112). -/
theorem SafeState.exec_tick {s : State} (h : SafeState s) (hsynced : s.synced = false) (hext : s.ext = false) :
    exec .tick s = .next
      { update^[(s.acc + s.inc) / s.thr] s with
        acc := (s.acc + s.inc) % s.thr
        resp := some (update^[(s.acc + s.inc) / s.thr] s).level } := by
  rw [exec_tick_of_clocking hsynced hext h.thr_pos.ne', h.clockInternal_eq]
  rfl

/-- Settles O32: the closed form of the internal clocking, the sum not wrapping in a safe state. -/
theorem tickClosedForm : Obligations.TickClosedForm := by
  unfold Obligations.TickClosedForm
  exact fun s h => h.exec_tick

/-- The phase starts at most one threshold up, so the increment alone can add updates to the first (R113). -/
theorem SafeState.updates_le {s : State} (h : SafeState s) : (s.acc + s.inc) / s.thr ≤ 1 + s.inc / s.thr :=
  calc (s.acc + s.inc) / s.thr ≤ (s.thr + s.inc) / s.thr := Nat.div_le_div_right (Nat.add_le_add_right h.acc_le _)
    _ = s.inc / s.thr + 1 := Nat.add_div_left _ h.thr_pos
    _ = 1 + s.inc / s.thr := Nat.add_comm _ _

/-- With the default bases the largest increment is less than three times the smallest threshold (R113). -/
theorem SafeState.inc_div_thr_le_two {s : State} (h : SafeState s) {v : Variant} (hc : s.config = Config.default v) :
    s.inc / s.thr ≤ 2 := by
  have hbase : s.inc ≤ 128000000 := by
    have hinc := h.inc_le
    rwa [hc] at hinc
  have hsmallest : 45158400 ≤ s.thr := by
    have hshift : ∀ n ≤ 2, 45158400 ≤ 180633600 >>> n := by decide
    rw [h.thr_eq, hc]
    exact hshift _ (toNat_le_two h.exp_ne_three)
  refine Nat.le_of_lt_succ ((Nat.div_lt_iff_lt_mul h.thr_pos).mpr ?_)
  omega

/-- Settles O33: the number of updates is the quotient of the closed form, and the new `ACC` its remainder. -/
theorem tickUpdatesBounded : Obligations.TickUpdatesBounded := by
  unfold Obligations.TickUpdatesBounded
  intro s h hsynced hext
  refine ⟨(s.acc + s.inc) / s.thr, h.updates_le, fun v hc => ?atMostThree, _, h.exec_tick hsynced hext, ?_, ?_, ?_⟩
  case atMostThree =>
    have hle := h.updates_le
    have htwo := h.inc_div_thr_le_two hc
    omega
  · exact iterate_update_state _ s
  · exact (Nat.div_add_mod' _ _).symm
  · exact Nat.mod_lt _ h.thr_pos

/-- Wherever `THR` is not zero a TICK completes, keeps the clock source and answers `LEVEL` as it leaves it (R114). -/
theorem exists_exec_tick {s : State} (hthr : s.thr ≠ 0) :
    ∃ t : State, exec .tick s = .next (t.respond (some t.level)) ∧ t.ext = s.ext := by
  by_cases hidle : s.synced = true ∨ s.ext = true
  · exact ⟨s, exec_tick_of_held_or_external hidle, rfl⟩
  · rw [not_or, Bool.not_eq_true, Bool.not_eq_true] at hidle
    obtain ⟨hsynced, hext⟩ := hidle
    refine ⟨clockInternal s, exec_tick_of_clocking hsynced hext hthr, ?_⟩
    rw [clockInternal_frame (Nat.pos_of_ne_zero hthr)]

/-- Settles O34: LVL answers `LEVEL`, which is what the TICK has just answered. -/
theorem tickThenLvlGivesOneBit : Obligations.TickThenLvlGivesOneBit := by
  unfold Obligations.TickThenLvlGivesOneBit
  intro s hthr
  obtain ⟨t, hex, -⟩ := exists_exec_tick hthr
  exact ⟨_, hex, rfl, rfl⟩

/-- A state that clocks internally with its phase below the threshold: where R115 starts. -/
structure Clocking (s : State) : Prop where
  safe : SafeState s
  synced : s.synced = false
  ext : s.ext = false
  acc_lt : s.acc < s.thr

/-- A TICK of a clocking state: whole updates, the remainder of the phase, and a clocking state again (R112). -/
theorem Clocking.after_tick {s : State} (h : Clocking s) :
    ∃ t, exec .tick s = .next t ∧ Clocking t ∧ t.config = s.config ∧ t.thr = s.thr ∧ t.inc = s.inc ∧
      t.acc = (s.acc + s.inc) % s.thr ∧ t.state = (nextState s.config)^[(s.acc + s.inc) / s.thr] s.state := by
  have hex := h.safe.exec_tick h.synced h.ext
  have hstate := iterate_update_state ((s.acc + s.inc) / s.thr) s
  have hsafe := h.safe.after_exec hex
  rw [iterate_update_frame] at hex hsafe
  exact ⟨_, hex, ⟨hsafe, h.synced, h.ext, Nat.mod_lt _ h.safe.thr_pos⟩, rfl, rfl, rfl, rfl, hstate⟩

/-- An SRC to an internal source of a clocking state changes its increment and nothing the clock shows (R103, R104). -/
theorem Clocking.after_src {s : State} (h : Clocking s) {sel : Word32} (hsel : maskSel sel ≠ 3) :
    ∃ t, exec (.src sel) s = .next t ∧ Clocking t ∧ t.config = s.config ∧ t.thr = s.thr ∧
      t.inc = incrementAt s.config (maskSel sel) ∧ t.acc = s.acc ∧ t.state = s.state := by
  have hex := exec_src sel s
  rw [selectSource_spec, if_neg hsel] at hex
  exact ⟨_, hex, ⟨h.safe.after_exec hex, h.synced, rfl, h.acc_lt⟩, rfl, rfl, rfl, rfl, rfl⟩

@[simp] theorem phaseAdded_tick (c : Config) (inc : Nat) (cs : List Instr) :
    phaseAdded c inc (.tick :: cs) = inc + phaseAdded c inc cs := rfl

theorem phaseAdded_src {sel : Word32} (hsel : maskSel sel ≠ 3) (c : Config) (inc : Nat) (cs : List Instr) :
    phaseAdded c inc (.src sel :: cs) = phaseAdded c (incrementAt c (maskSel sel)) cs := by
  rw [phaseAdded, incrementAfter, if_neg hsel, if_neg nofun, Nat.zero_add]

/-- What R115 says of a list of commands from one state. -/
def AccumulatesOver (cs : List Instr) (s : State) : Prop :=
  updateCount cs s = (s.acc + phaseAdded s.config s.inc cs) / s.thr ∧
    ∃ t, execAll cs s = .next t ∧ t.acc = (s.acc + phaseAdded s.config s.inc cs) % s.thr ∧
      t.state = (nextState s.config)^[(s.acc + phaseAdded s.config s.inc cs) / s.thr] s.state

/-- A list that starts with a TICK: its updates come first, and the remainder of its division goes on (R115). -/
theorem Clocking.accumulatesOver_tick {s : State} (h : Clocking s) {cs : List Instr}
    (ih : ∀ t, Clocking t → AccumulatesOver cs t) : AccumulatesOver (.tick :: cs) s := by
  obtain ⟨t, hex, ht, hconfig, hthr, hinc, hacc, hstate⟩ := h.after_tick
  obtain ⟨hcount, u, hrun, huacc, hustate⟩ := ih t ht
  rw [hconfig, hthr, hinc, hacc] at hcount huacc hustate
  have hdiv : (s.acc + (s.inc + phaseAdded s.config s.inc cs)) / s.thr =
      (s.acc + s.inc) / s.thr + ((s.acc + s.inc) % s.thr + phaseAdded s.config s.inc cs) / s.thr := by
    rw [← Nat.mul_add_div h.safe.thr_pos, ← Nat.add_assoc, ← Nat.add_assoc, Nat.div_add_mod]
  have hupdates : updatesOf s .tick = (s.acc + s.inc) / s.thr := by
    rw [updatesOf_tick, h.synced, h.ext, h.safe.addW_eq]
    rfl
  refine ⟨?_, u, (execAll_cons_of_next hex).trans hrun, ?_, ?_⟩ <;> rw [phaseAdded_tick]
  · rw [updateCount_cons_of_next hex, hcount, hupdates, hdiv]
  · rw [huacc, Nat.mod_add_mod, Nat.add_assoc]
  · rw [hustate, hstate, ← Function.iterate_add_apply, hdiv, Nat.add_comm]

/-- A list that starts with an SRC to an internal source: only the increment of the TICKs after it changes (R115). -/
theorem Clocking.accumulatesOver_src {s : State} (h : Clocking s) {sel : Word32} (hsel : maskSel sel ≠ 3)
    {cs : List Instr} (ih : ∀ t, Clocking t → AccumulatesOver cs t) : AccumulatesOver (.src sel :: cs) s := by
  obtain ⟨t, hex, ht, hconfig, hthr, hinc, hacc, hstate⟩ := h.after_src hsel
  obtain ⟨hcount, u, hrun, huacc, hustate⟩ := ih t ht
  rw [hconfig, hthr, hinc, hacc] at hcount huacc hustate
  refine ⟨?_, u, (execAll_cons_of_next hex).trans hrun, ?_, ?_⟩ <;> rw [phaseAdded_src hsel]
  · rw [updateCount_cons_of_next hex, hcount]
    exact Nat.zero_add _
  · exact huacc
  · rw [hustate, hstate]

theorem Clocking.accumulatesOver_nil {s : State} (h : Clocking s) : AccumulatesOver [] s := by
  have hdiv : (s.acc + phaseAdded s.config s.inc []) / s.thr = 0 := Nat.div_eq_of_lt h.acc_lt
  refine ⟨hdiv.symm, s, execAll_nil s, (Nat.mod_eq_of_lt h.acc_lt).symm, ?_⟩
  rw [hdiv]
  rfl

/-- Settles O35, by induction on the list of commands. -/
theorem accumulatorCorrectness : Obligations.AccumulatorCorrectness := by
  unfold Obligations.AccumulatorCorrectness
  intro cs s hsafe hsynced hext hacc hcs
  have h : Clocking s := ⟨hsafe, hsynced, hext, hacc⟩
  clear hsafe hsynced hext hacc
  induction cs generalizing s with
  | nil => exact h.accumulatesOver_nil
  | cons i cs ih =>
    obtain ⟨hi, hrest⟩ := List.forall_mem_cons.mp hcs
    have ih' : ∀ t, Clocking t → AccumulatesOver cs t := fun t => ih t hrest
    cases i with
    | tick => exact h.accumulatesOver_tick ih'
    | src sel => exact h.accumulatesOver_src (by simpa [clocksInternally] using hi) ih'
    | cfg _ => cases hi
    | trig => cases hi
    | sync _ => cases hi
    | seed _ => cases hi
    | lvl => cases hi
    | reserved7 => cases hi

end Sys2Proof.Machine
end

section
/-! SUPPORT. One update in Variant B, bit by bit: the insert table, the lock-up and the recurrence, and the bit of
Variant A (spec/42_lfsr.md R152, R155 to R159). -/

namespace Sys2Proof.Machine

/-- Settles O46: a number above `2^31` that fits 32 bits is one with bit 31 set, other than `2^31` itself. -/
theorem variantALevelIsOldTopBit : Obligations.VariantALevelIsOldTopBit := by
  unfold Obligations.VariantALevelIsOldTopBit
  intro s hc
  have htop : s.state.getLsbD 31 = decide (0x80000000 ≤ s.state.toNat) := BitVec.msb_eq_decide s.state
  rw [update_level_default_a hc, htop]
  by_cases heq : s.state = 0x80000000
  · rw [if_pos heq, heq]
    rfl
  · have hne : s.state.toNat ≠ 0x80000000 := fun hn => heq (BitVec.eq_of_toNat_eq hn)
    rw [if_neg heq]
    by_cases hlt : 0x80000000 < s.state.toNat
    · rw [if_pos hlt, decide_eq_true hlt.le]
      rfl
    · rw [if_neg hlt, decide_eq_false (by omega)]
      rfl

theorem nextState_of_variant_b {c : Config} (h : c.variant = .b) (old : Word32) : nextState c old = nextB c old := by
  simp only [nextState, h]

theorem nextLevel_of_variant_b {c : Config} (h : c.variant = .b) (old : Word32) :
    nextLevel c old = levelB (nextB c old) := by
  simp only [nextLevel, h]

/-- The insert table is decided by whether the taps agree (R156). -/
theorem insertBit_eq (c : Config) (hi lo : Bool) :
    insertBit c hi lo = if hi = lo then c.insAgree else c.insDisagree := by
  cases hi with
  | false => cases lo <;> rfl
  | true => cases lo <;> rfl

/-- The bit an update of Variant B inserts, the taps read from the old `STATE` (R155). -/
def insertedBit (c : Config) (old : Word32) : Bit := insertBit c (old.getLsbD c.tapHi) (old.getLsbD c.tapLo)

theorem nextB_eq (c : Config) (old : Word32) : nextB c old = (old <<< 1) ||| (insertedBit c old).setWidth 32 := rfl

/-- An update of Variant B moves every bit but the top one up by one place (R155). -/
theorem getLsbD_nextB_succ (c : Config) (old : Word32) {k : Nat} (hk : k < 31) :
    (nextB c old).getLsbD (k + 1) = old.getLsbD k := by
  have hlt : k + 1 < 32 := by omega
  simp [nextB_eq, hlt, -BitVec.getLsbD_eq_getElem]

theorem getLsbD_nextB_zero (c : Config) (old : Word32) :
    (nextB c old).getLsbD 0 = (insertedBit c old).getLsbD 0 := by
  simp [nextB_eq]

/-- The output of Variant B is the inserted bit (R155, R157). -/
theorem levelB_nextB (c : Config) (old : Word32) : levelB (nextB c old) = insertedBit c old := by
  apply BitVec.eq_of_getLsbD_eq
  intro i hi
  obtain rfl : i = 0 := by omega
  rw [← getLsbD_nextB_zero]
  simp [levelB]

/-- With the default numbers the inserted bit is the exclusive or of bits 30 and 2 (R156). -/
theorem insertedBit_default_b (old : Word32) :
    insertedBit (Config.default .b) old = BitVec.ofBool (old.getLsbD 30 ^^ old.getLsbD 2) := by
  have htable : ∀ hi lo : Bool, insertBit (Config.default .b) hi lo = BitVec.ofBool (hi ^^ lo) := by decide
  exact htable _ _

/-- The worked example of R120 and R155: both taps are set, so 0 is inserted. -/
theorem update_example_b {s : State} (hc : s.config = Config.default .b) (hstate : s.state = 0x40000004) :
    update s = { s with state := 0x80000008, level := 0 } := by
  have hnext : nextState s.config s.state = 0x80000008 := by rw [hc, hstate]; decide
  have hlevel : nextLevel s.config s.state = 0 := by rw [hc, hstate]; decide
  rw [update, hnext, hlevel]
  rfl

/-- Settles O47: the inserted bit is the agreement of the taps; the example is computed. -/
theorem updateVariantB : Obligations.UpdateVariantB := by
  unfold Obligations.UpdateVariantB
  refine ⟨fun s hb => ?shift, fun s hc hstate => ?worked⟩
  case shift =>
    have hnext := nextState_of_variant_b hb s.state
    have hlevel := (nextLevel_of_variant_b hb s.state).trans (levelB_nextB s.config s.state)
    refine ⟨insertedBit s.config s.state, fun hagree => (insertBit_eq _ _ _).trans (if_pos hagree),
      fun hdiffer => (insertBit_eq _ _ _).trans (if_neg hdiffer), ?_, fun k hk => ?_, ?_⟩
    · rw [update, hnext, hlevel]
      rfl
    · rw [update_state, hnext, getLsbD_nextB_succ _ _ hk]
    · rw [update_state, hnext, getLsbD_nextB_zero]
  case worked =>
    rw [update_example_b hc hstate]
    exact ⟨rfl, rfl⟩

/-- With the default numbers of Variant B, an update shows the exclusive or of bits 30 and 2 (R156). -/
theorem update_level_default_b {s : State} (hc : s.config = Config.default .b) :
    (update s).level = BitVec.ofBool (s.state.getLsbD 30 ^^ s.state.getLsbD 2) := by
  rw [update_level, hc, nextLevel_of_variant_b rfl, levelB_nextB, insertedBit_default_b]

/-- The output of an update stands in bit 0 of the new `STATE` (R157). -/
theorem getLsbD_update_zero {s : State} (hb : s.config.variant = .b) :
    (update s).state.getLsbD 0 = (update s).level.getLsbD 0 := by
  rw [update_state, update_level, nextState_of_variant_b hb, nextLevel_of_variant_b hb, levelB_nextB,
    getLsbD_nextB_zero]

theorem getLsbD_update_succ {s : State} (hb : s.config.variant = .b) {k : Nat} (hk : k < 31) :
    (update s).state.getLsbD (k + 1) = s.state.getLsbD k := by
  rw [update_state, nextState_of_variant_b hb, getLsbD_nextB_succ _ _ hk]

/-- The default output sees its two taps only (R155). -/
theorem update_level_of_taps {s : State} (hc : s.config = Config.default .b) {taps : Word32}
    (h : s.state &&& 0x40000004 = taps) :
    (update s).level = BitVec.ofBool (taps.getLsbD 30 ^^ taps.getLsbD 2) := by
  rw [update_level_default_b hc, ← h, BitVec.getLsbD_and, BitVec.getLsbD_and]
  simp

/-- Settles O48: each row fixes the two taps. -/
theorem insertTable : Obligations.InsertTable := by
  unfold Obligations.InsertTable
  exact fun s hc => ⟨update_level_of_taps hc, update_level_of_taps hc, update_level_of_taps hc,
    update_level_of_taps hc, update_level_default_b hc⟩

@[simp] theorem iterate_update_config (n : Nat) (s : State) : (update^[n] s).config = s.config := by
  rw [iterate_update_frame]

/-- The low 31 bits are zero, bit by bit. -/
theorem lowPart_eq_zero_iff {x : Word32} : x.extractLsb' 0 31 = 0 ↔ ∀ k < 31, x.getLsbD k = false := by
  constructor
  · intro h k hk
    have hbit := congrArg (fun y => y.getLsbD k) h
    simpa [hk] using hbit
  · intro h
    apply BitVec.eq_of_getLsbD_eq
    intro k hk
    simpa [hk] using h k hk

/-- From a zero low part Variant B inserts 0 and shifts in nothing (R158). -/
theorem nextB_eq_zero {x : Word32} (h : x.extractLsb' 0 31 = 0) : nextB (Config.default .b) x = 0 := by
  rw [lowPart_eq_zero_iff] at h
  apply BitVec.eq_of_getLsbD_eq
  intro k hk
  cases k with
  | zero =>
    rw [getLsbD_nextB_zero, insertedBit_default_b, h 30 (by decide), h 2 (by decide)]
    rfl
  | succ k =>
    rw [getLsbD_nextB_succ _ _ (by omega), h k (by omega)]
    exact BitVec.getLsbD_zero.symm

/-- An update of Variant B neither makes nor breaks a zero low part: a bit above would be inserted again (R158). -/
theorem lowPart_nextB_eq_zero_iff {x : Word32} :
    (nextB (Config.default .b) x).extractLsb' 0 31 = 0 ↔ x.extractLsb' 0 31 = 0 := by
  refine ⟨fun h => ?_, fun h => by rw [nextB_eq_zero h]; rfl⟩
  rw [lowPart_eq_zero_iff] at h ⊢
  have hshifted : ∀ k < 30, x.getLsbD k = false := fun k hk => by
    rw [← getLsbD_nextB_succ (Config.default .b) x (by omega)]
    exact h (k + 1) (by omega)
  have htop : x.getLsbD 30 = false := by
    have hinserted := h 0 (by decide)
    rw [getLsbD_nextB_zero, insertedBit_default_b, hshifted 2 (by decide)] at hinserted
    simpa using hinserted
  intro k hk
  obtain hlt | rfl : k < 30 ∨ k = 30 := by omega
  · exact hshifted k hlt
  · exact htop

theorem lowPart_iterate_eq_zero_iff (n : Nat) (x : Word32) :
    ((nextState (Config.default .b))^[n] x).extractLsb' 0 31 = 0 ↔ x.extractLsb' 0 31 = 0 := by
  induction n with
  | zero => rfl
  | succ n ih => rw [Function.iterate_succ_apply', nextState_of_variant_b rfl, lowPart_nextB_eq_zero_iff, ih]

/-- Settles O49: an update keeps whether the low part is zero, and from a zero low part it leaves 0 in both
registers. -/
theorem variantBLockUp : Obligations.VariantBLockUp := by
  unfold Obligations.VariantBLockUp
  intro s n hc
  refine ⟨fun hzero => ?locked, fun hne => ?free⟩
  case locked =>
    have hnext := nextB_eq_zero ((lowPart_iterate_eq_zero_iff n s.state).mpr hzero)
    refine ⟨?_, ?_⟩
    · rw [iterate_update_state, hc, Function.iterate_succ_apply', nextState_of_variant_b rfl, hnext]
    · rw [iterate_update_level, hc, nextLevel_of_variant_b rfl, hnext]
      rfl
  case free =>
    rw [iterate_update_state, hc]
    exact mt (lowPart_iterate_eq_zero_iff n s.state).mp hne

/-- The inserted bit moves up one place an update (R159). -/
theorem getLsbD_iterate_update {s : State} (hb : s.config.variant = .b) (n : Nat) {k : Nat} (hk : k ≤ 31) :
    (update^[n + k + 1] s).state.getLsbD k = (update^[n + 1] s).level.getLsbD 0 := by
  have hvariant : ∀ m, (update^[m] s).config.variant = .b := fun m => by rwa [iterate_update_config]
  induction k with
  | zero =>
    rw [Nat.add_zero, Function.iterate_succ_apply']
    exact getLsbD_update_zero (hvariant n)
  | succ k ih =>
    rw [Function.iterate_succ_apply', getLsbD_update_succ (hvariant _) (by omega)]
    exact ih (by omega)

/-- Settles O51: the taps of an update read the bits that the updates 31 and 3 before it inserted. -/
theorem variantBRecurrence : Obligations.VariantBRecurrence := by
  unfold Obligations.VariantBRecurrence
  intro s n hc
  have hb : s.config.variant = .b := by rw [hc]; rfl
  refine ⟨fun k hk => getLsbD_iterate_update hb n hk, ?_⟩
  have hc' : (update^[n + 31] s).config = Config.default .b := by rw [iterate_update_config, hc]
  have htapHi : (update^[n + 31] s).state.getLsbD 30 = (update^[n + 1] s).level.getLsbD 0 :=
    getLsbD_iterate_update hb n (k := 30) (by decide)
  have htapLo : (update^[n + 31] s).state.getLsbD 2 = (update^[n + 29] s).level.getLsbD 0 :=
    getLsbD_iterate_update hb (n + 28) (k := 2) (by decide)
  have hxor : ∀ a b : Bit, BitVec.ofBool (a.getLsbD 0 ^^ b.getLsbD 0) = a ^^^ b := by decide
  rw [Function.iterate_succ_apply', update_level_default_b hc', htapHi, htapLo, hxor]

end Sys2Proof.Machine
end

section
/-! SUPPORT. TRIG, SYNC, SEED and LVL: the registers they write, and what they show (spec/41_clocking.md R120 to R132,
spec/42_lfsr.md R140 to R145). -/

namespace Sys2Proof.Machine

/-- TRIG in external mode is one update, held or not (R120, R122). -/
theorem exec_trig_of_external {s : State} (h : s.ext = true) : exec .trig s = .next ((update s).respond none) := by
  simp only [exec, execTrig, h, if_true]

/-- TRIG in internal mode is dropped (R121). -/
theorem exec_trig_of_internal {s : State} (h : s.ext = false) : exec .trig s = .next (s.respond none) := by
  simp [exec, execTrig, h]

theorem exec_sync (active : Bool) (s : State) : exec (.sync active) s = .next ((hold active s).respond none) := rfl

theorem exec_seed (v : Word32) (s : State) : exec (.seed v) s = .next ((s.writeState v).respond none) := rfl

theorem exec_lvl (s : State) : exec .lvl s = .next (s.respond (some s.level)) := rfl

/-- Settles O15, by evaluating the first TICK and the dropped TRIG. -/
theorem useBeforeConfigurationIsSafe : Obligations.UseBeforeConfigurationIsSafe := by
  unfold Obligations.UseBeforeConfigurationIsSafe
  exact ⟨rfl, exec_trig_of_internal rfl⟩

/-- Settles O37, the example from the one update it makes. -/
theorem trigResult : Obligations.TrigResult := by
  unfold Obligations.TrigResult
  refine ⟨⟨decode_wordOf_trig, by decide⟩, fun s hext => ⟨exec_trig_of_external hext, rfl⟩,
    fun s hext => exec_trig_of_internal hext, fun s hc hext hstate => ?_⟩
  rw [exec_trig_of_external hext, update_example_b hc hstate]
  rfl

/-- Settles O40: the writes of SYNC, and the TICK under the hold that changes nothing. -/
theorem syncResult : Obligations.SyncResult := by
  unfold Obligations.SyncResult
  refine ⟨⟨decode_wordOf_sync, by decide, by decide⟩, fun s => rfl, fun s => rfl, fun s _ _ => ⟨by decide, ?_⟩⟩
  rw [execAll_cons_of_next (exec_sync true s), execAll_singleton, exec_tick_of_held_or_external (.inl rfl)]
  rfl

/-- Settles O41: a held state has phase zero already. -/
theorem holdAndReleaseEffects : Obligations.HoldAndReleaseEffects := by
  unfold Obligations.HoldAndReleaseEffects
  intro s h
  obtain ⟨-, -, -, -, hheld, -⟩ := h
  refine ⟨fun hsynced => ⟨?_, ?_⟩, fun hsynced => ?_⟩
  · rw [exec_sync, hold_spec, if_pos rfl, ← hsynced, ← hheld hsynced]
    rfl
  · rw [exec_sync, hold_spec, if_neg (by decide), ← hheld hsynced]
    rfl
  · rw [exec_sync, hold_spec, if_neg (by decide), ← hsynced]
    rfl

/-- Settles O42. -/
theorem seedResult : Obligations.SeedResult := by
  unfold Obligations.SeedResult
  exact ⟨fun v s => ⟨rfl, decode_wordOf_seed v, exec_seed v s⟩, by decide⟩

/-- Settles O43: LVL answers the bit that SEED leaves, and the update of TRIG reads the seeded `STATE`. -/
theorem seedShowsAtTheNextUpdate : Obligations.SeedShowsAtTheNextUpdate := by
  unfold Obligations.SeedShowsAtTheNextUpdate
  intro v s hext
  refine ⟨rfl, (update ((s.writeState v).respond none)).respond none, ?_, fun hc => ?_, fun hc => ?_⟩
  · rw [execAll_cons_of_next (exec_seed v s), execAll_singleton]
    exact exec_trig_of_external hext
  · exact update_level_default_a (s := (s.writeState v).respond none) hc
  · exact update_level_default_b (s := (s.writeState v).respond none) hc

/-- Settles O44, any number of LVLs by induction: each finds the `LEVEL` the one before it left. -/
theorem lvlResult : Obligations.LvlResult := by
  unfold Obligations.LvlResult
  refine ⟨⟨decode_wordOf_lvl, by decide⟩, fun k s => ⟨?repeated, rfl⟩, rfl, fun s hc hext hstate => ?worked⟩
  case repeated =>
    induction k generalizing s with
    | zero => exact execAll_singleton .lvl s
    | succ k ih =>
      rw [List.replicate_succ, execAll_cons_of_next (exec_lvl s), ih]
      rfl
  case worked =>
    refine ⟨_, execAll_cons_of_next (exec_trig_of_external hext), ?_⟩
    rw [update_example_b hc hstate]
    rfl

/-- Settles O54: SEED writes the one register the parameter sets. -/
theorem constructionWithSeed : Obligations.ConstructionWithSeed := by
  unfold Obligations.ConstructionWithSeed
  exact fun c v => exec_seed v (State.resetWith c)

/-- `LEVEL` after a number of updates, said of the number: kept by none, and else the bit of the last (R23). -/
theorem iterate_update_level_cases {s t : State} {n : Nat} (h : t.level = (update^[n] s).level) :
    (n = 0 → t.level = s.level) ∧
      ∀ m, n = m + 1 → t.level = nextLevel s.config ((nextState s.config)^[m] s.state) := by
  refine ⟨?_, fun m => ?_⟩
  · rintro rfl
    exact h
  · rintro rfl
    rw [h, iterate_update_level]

/-- `LEVEL` after any command, SEED included, is that of the updates it performs (R23, R35 (3)). -/
theorem level_of_exec {i : Instr} {s t : State} (h : exec i s = .next t) :
    t.level = (update^[updatesOf s i] s).level := by
  cases hi : keepsSeed i with
  | true =>
    obtain ⟨-, -, hlevel⟩ := sameGenerator_exec hi h
    exact hlevel
  | false =>
    cases i with
    | seed v => rw [exec_seed] at h; rw [← next_inj h]; rfl
    | cfg _ => cases hi
    | src _ => cases hi
    | tick => cases hi
    | trig => cases hi
    | sync _ => cases hi
    | lvl => cases hi
    | reserved7 => cases hi

/-- Only TICK and TRIG perform updates (R150). -/
theorem updatesOf_eq_zero {i : Instr} (htick : i ≠ .tick) (htrig : i ≠ .trig) (s : State) : updatesOf s i = 0 := by
  cases i with
  | tick => exact absurd rfl htick
  | trig => exact absurd rfl htrig
  | cfg _ => rfl
  | src _ => rfl
  | sync _ => rfl
  | seed _ => rfl
  | lvl => rfl
  | reserved7 => rfl

/-- Settles O53: for `LEVEL` a command is the updates it performs. -/
theorem levelChangesOnlyByUpdates : Obligations.LevelChangesOnlyByUpdates := by
  unfold Obligations.LevelChangesOnlyByUpdates
  intro i s t hex
  obtain ⟨hnone, hsome⟩ := iterate_update_level_cases (level_of_exec hex)
  exact ⟨hnone, hsome, fun htick htrig => hnone (updatesOf_eq_zero htick htrig s)⟩

end Sys2Proof.Machine
end

section
/-! SUPPORT. What no command reads: the response; `STATE`, as far as the clock goes; and bit 31 of `STATE` in Variant B
(spec/41_clocking.md R116, R121, R124, spec/42_lfsr.md R159). -/

namespace Sys2Proof.Machine

theorem catchUp_respond (n : Nat) (s : State) (r : Option Bit) :
    catchUp n (s.respond r) = (catchUp n s).respond r := by
  induction n generalizing s with
  | zero => rfl
  | succ n ih =>
    rw [catchUp, catchUp, apply_ite (State.respond · r), ← ih]
    rfl

theorem clockInternal_respond (s : State) (r : Option Bit) :
    clockInternal (s.respond r) = (clockInternal s).respond r :=
  catchUp_respond _ (s.writeAcc (addW s.config s.acc s.inc)) r

/-- No command reads the response of the one before it (R68). -/
theorem exec_respond (i : Instr) (s : State) (r : Option Bit) : exec i (s.respond r) = exec i s := by
  cases i with
  | cfg e => rfl
  | src sel => rw [exec_src, exec_src, selectSource_respond, respond_respond]
  | tick =>
    simp only [exec, execTick, clockInternal_respond]
    rfl
  | trig =>
    cases hext : s.ext with
    | true =>
      rw [exec_trig_of_external hext, exec_trig_of_external (s := s.respond r) hext]
      rfl
    | false =>
      rw [exec_trig_of_internal hext, exec_trig_of_internal (s := s.respond r) hext]
      rfl
  | sync active => cases active <;> rfl
  | seed v => rfl
  | lvl => rfl
  | reserved7 => rfl

/-- Settles O38: a dropped trigger leaves its response only, which the next command does not read. -/
theorem droppedTriggerLeavesNoTrace : Obligations.DroppedTriggerLeavesNoTrace := by
  unfold Obligations.DroppedTriggerLeavesNoTrace
  intro i cs s hext
  rw [execAll_cons_of_next (exec_trig_of_internal hext), execAll, exec_respond]
  rfl

/-- Settles O39: in external mode the TICK does nothing in either order, in internal mode the TRIG. -/
theorem tickAndTrigCommute : Obligations.TickAndTrigCommute := by
  unfold Obligations.TickAndTrigCommute
  intro s hthr
  cases hext : s.ext with
  | true =>
    refine ⟨(update s).respond none, (update s).respond (some (update s).level), ?_, ?_, rfl⟩
    · rw [execAll_cons_of_next (exec_tick_of_held_or_external (.inr hext)), execAll_singleton, exec_respond,
        exec_trig_of_external hext]
    · rw [execAll_cons_of_next (exec_trig_of_external hext), execAll_singleton, exec_respond]
      exact exec_tick_of_held_or_external (.inr hext)
  | false =>
    obtain ⟨t, htick, hsource⟩ := exists_exec_tick hthr
    have hstill : t.ext = false := hsource.trans hext
    refine ⟨t.respond none, t.respond (some t.level), ?_, ?_, rfl⟩
    · rw [execAll_cons_of_next htick, execAll_singleton, exec_respond, exec_trig_of_internal hstill]
    · rw [execAll_cons_of_next (exec_trig_of_internal hext), execAll_singleton, exec_respond, htick]

/-- The states agree on every register the clock depends on: they differ in `STATE`, `LEVEL` and the response at most
(R116). -/
def SameClock (s r : State) : Prop := ∃ x l p, r = ((s.writeState x).writeLevel l).respond p

theorem sameClock_clockInternal {s r : State} (h : SameClock s r) (hpos : 0 < s.thr) :
    SameClock (clockInternal s) (clockInternal r) := by
  obtain ⟨x, l, p, rfl⟩ := h
  rw [clockInternal_spec s hpos, clockInternal_spec _ (by exact hpos)]
  rw [iterate_update_frame _ s, iterate_update_frame _ (((s.writeState x).writeLevel l).respond p)]
  exact ⟨_, _, _, rfl⟩

/-- Every command completes from both states or from neither, and keeps them of one clock (R116). -/
theorem SameClock.after_exec {i : Instr} {s t r : State} (h : SameClock s r) (hex : exec i s = .next t) :
    ∃ u, exec i r = .next u ∧ SameClock t u := by
  have hclock := fun hpos => sameClock_clockInternal h hpos
  obtain ⟨x, l, p, rfl⟩ := h
  obtain ⟨e, rfl, he, rfl⟩ | ⟨sel, rfl, rfl⟩ | ⟨rfl, hidle, rfl⟩ | ⟨rfl, hclocks, hthr, rfl⟩ | ⟨rfl, hext, rfl⟩ |
    ⟨rfl, hext, rfl⟩ | ⟨active, rfl, rfl⟩ | ⟨v, rfl, rfl⟩ | ⟨rfl, rfl⟩ := exec_next_cases hex
  · exact ⟨_, exec_cfg he _, x, l, none, rfl⟩
  · refine ⟨_, exec_src sel _, x, l, none, ?_⟩
    rw [selectSource_spec, selectSource_spec]
    split <;> rfl
  · rw [Bool.or_eq_true] at hidle
    exact ⟨_, exec_tick_of_held_or_external hidle, x, l, some l, rfl⟩
  · obtain ⟨hsynced, hext⟩ := Bool.or_eq_false_iff.mp hclocks
    obtain ⟨x', l', p', heq⟩ := hclock (Nat.pos_of_ne_zero hthr)
    refine ⟨_, exec_tick_of_clocking hsynced hext hthr, x', l', some l', ?_⟩
    rw [heq]
    rfl
  · exact ⟨_, exec_trig_of_external hext, _, _, none, rfl⟩
  · exact ⟨_, exec_trig_of_internal hext, x, l, none, rfl⟩
  · refine ⟨_, exec_sync active _, x, l, none, ?_⟩
    rw [hold_spec, hold_spec]
    split <;> rfl
  · exact ⟨_, exec_seed v _, v, l, none, rfl⟩
  · exact ⟨_, exec_lvl _, x, l, some l, rfl⟩

/-- How many updates a command performs is a matter of the clock alone (R116). -/
theorem SameClock.updatesOf_eq {s r : State} (h : SameClock s r) (i : Instr) : updatesOf r i = updatesOf s i := by
  obtain ⟨x, l, p, rfl⟩ := h
  cases i with
  | tick => rfl
  | trig => rfl
  | cfg _ => rfl
  | src _ => rfl
  | sync _ => rfl
  | seed _ => rfl
  | lvl => rfl
  | reserved7 => rfl

/-- A list of commands completes from a state of the same clock, with the same updates: induction on the list (R116). -/
theorem SameClock.after_execAll {cs : List Instr} {s t r : State} (h : SameClock s r) (hrun : execAll cs s = .next t) :
    updateCount cs r = updateCount cs s ∧ ∃ u, execAll cs r = .next u ∧ SameClock t u := by
  induction cs generalizing s r with
  | nil => exact ⟨rfl, r, execAll_nil r, next_inj hrun ▸ h⟩
  | cons i cs ih =>
    obtain ⟨s', hex, hrest⟩ := execAll_cons_next hrun
    obtain ⟨r', hex', h'⟩ := h.after_exec hex
    obtain ⟨hcount, u, hrun', hu⟩ := ih h' hrest
    refine ⟨?_, u, (execAll_cons_of_next hex').trans hrun', hu⟩
    rw [updateCount_cons_of_next hex, updateCount_cons_of_next hex', h.updatesOf_eq, hcount]

/-- Settles O36: a state and the same state with another `STATE` are of one clock. -/
theorem seedNeverMovesTheClock : Obligations.SeedNeverMovesTheClock := by
  unfold Obligations.SeedNeverMovesTheClock
  intro cs s t v hrun
  have hsame : SameClock s { s with state := v } := ⟨v, s.level, s.resp, rfl⟩
  obtain ⟨hcount, u, hrun', x, l, p, rfl⟩ := hsame.after_execAll hrun
  exact ⟨hcount, _, hrun', rfl⟩

end Sys2Proof.Machine
end

section
/-! SUPPORT. Bit 31 of `STATE` is dead in Variant B: two runs that differ in it alone go on in lockstep
(spec/42_lfsr.md R159). -/

namespace Sys2Proof.Machine

/-- The state with bit 31 of `STATE` inverted. -/
def State.flipTop (s : State) : State := s.writeState (s.state ^^^ 0x80000000)

/-- The second state is the first, or the first with bit 31 of `STATE` inverted. -/
def AgreeButTop (s u : State) : Prop := u = s ∨ u = s.flipTop

theorem agreeButTop_refl (s : State) : AgreeButTop s s := .inl rfl

theorem agreeButTop_flipTop (s : State) : AgreeButTop s s.flipTop := .inr rfl

theorem AgreeButTop.level_eq {s u : State} (h : AgreeButTop s u) : u.level = s.level := by
  obtain rfl | rfl := h <;> rfl

theorem AgreeButTop.resp_eq {s u : State} (h : AgreeButTop s u) : u.resp = s.resp := by
  obtain rfl | rfl := h <;> rfl

theorem AgreeButTop.respond {s u : State} (h : AgreeButTop s u) (r : Option Bit) :
    AgreeButTop (s.respond r) (u.respond r) := by
  obtain rfl | rfl := h
  · exact .inl rfl
  · exact .inr rfl

theorem AgreeButTop.writeAcc {s u : State} (h : AgreeButTop s u) (v : Nat) :
    AgreeButTop (s.writeAcc v) (u.writeAcc v) := by
  obtain rfl | rfl := h
  · exact .inl rfl
  · exact .inr rfl

theorem getLsbD_xor_top (x : Word32) {k : Nat} (hk : k < 31) : (x ^^^ 0x80000000).getLsbD k = x.getLsbD k := by
  have hmask : ∀ j < 31, (0x80000000 : Word32).getLsbD j = false := by decide
  rw [BitVec.getLsbD_xor, hmask k hk, Bool.xor_false]

/-- The shift drops bit 31, and the default taps are below it (R155). -/
theorem nextB_xor_top (x : Word32) : nextB (Config.default .b) (x ^^^ 0x80000000) = nextB (Config.default .b) x := by
  apply BitVec.eq_of_getLsbD_eq
  intro k hk
  cases k with
  | zero =>
    rw [getLsbD_nextB_zero, getLsbD_nextB_zero, insertedBit_default_b, insertedBit_default_b,
      getLsbD_xor_top x (by decide), getLsbD_xor_top x (by decide)]
  | succ k =>
    rw [getLsbD_nextB_succ _ _ (by omega), getLsbD_nextB_succ _ _ (by omega), getLsbD_xor_top x (by omega)]

/-- One update makes the two states one (R159). -/
theorem update_flipTop {s : State} (hc : s.config = Config.default .b) : update s.flipTop = update s := by
  have hstate : nextState s.config (s.state ^^^ 0x80000000) = nextState s.config s.state := by
    rw [hc, nextState_of_variant_b rfl, nextState_of_variant_b rfl, nextB_xor_top]
  have hlevel : nextLevel s.config (s.state ^^^ 0x80000000) = nextLevel s.config s.state := by
    rw [hc, nextLevel_of_variant_b rfl, nextLevel_of_variant_b rfl, nextB_xor_top]
  rw [update, update, ← hstate, ← hlevel]
  rfl

theorem agreeButTop_iterate_update {s : State} (hc : s.config = Config.default .b) (n : Nat) :
    AgreeButTop (update^[n] s) (update^[n] s.flipTop) := by
  cases n with
  | zero => exact agreeButTop_flipTop s
  | succ n =>
    rw [Function.iterate_succ_apply, Function.iterate_succ_apply, update_flipTop hc]
    exact agreeButTop_refl _

theorem agreeButTop_clockInternal {s : State} (hc : s.config = Config.default .b) (hpos : 0 < s.thr) :
    AgreeButTop (clockInternal s) (clockInternal s.flipTop) := by
  rw [clockInternal_spec s hpos, clockInternal_spec s.flipTop (by exact hpos)]
  exact (agreeButTop_iterate_update hc _).writeAcc _

/-- Every command that completes from a state completes with bit 31 inverted, and the states it leaves agree but for
it (R159). -/
theorem exec_flipTop {i : Instr} {s t : State} (hc : s.config = Config.default .b) (hex : exec i s = .next t) :
    ∃ u, exec i s.flipTop = .next u ∧ AgreeButTop t u := by
  obtain ⟨e, rfl, he, rfl⟩ | ⟨sel, rfl, rfl⟩ | ⟨rfl, hidle, rfl⟩ | ⟨rfl, hclocks, hthr, rfl⟩ | ⟨rfl, hext, rfl⟩ |
    ⟨rfl, hext, rfl⟩ | ⟨active, rfl, rfl⟩ | ⟨v, rfl, rfl⟩ | ⟨rfl, rfl⟩ := exec_next_cases hex
  · exact ⟨_, exec_cfg he _, .inr rfl⟩
  · refine ⟨_, exec_src sel _, .inr ?_⟩
    rw [selectSource_spec, selectSource_spec]
    split <;> rfl
  · rw [Bool.or_eq_true] at hidle
    exact ⟨_, exec_tick_of_held_or_external hidle, .inr rfl⟩
  · obtain ⟨hsynced, hext⟩ := Bool.or_eq_false_iff.mp hclocks
    have hagree := agreeButTop_clockInternal hc (Nat.pos_of_ne_zero hthr)
    refine ⟨_, exec_tick_of_clocking hsynced hext hthr, ?_⟩
    rw [hagree.level_eq]
    exact hagree.respond _
  · exact ⟨_, exec_trig_of_external hext, .inl (by rw [update_flipTop hc])⟩
  · exact ⟨_, exec_trig_of_internal hext, .inr rfl⟩
  · refine ⟨_, exec_sync active _, .inr ?_⟩
    rw [hold_spec, hold_spec]
    split <;> rfl
  · exact ⟨_, exec_seed v _, .inl rfl⟩
  · exact ⟨_, exec_lvl _, .inr rfl⟩

/-- A step, whatever is presented, keeps the states in lockstep; a reset makes them one (R159). -/
theorem step_flipTop {s t : State} (hc : s.config = Config.default .b) (hstep : step s = .next t) :
    ∃ u, step s.flipTop = .next u ∧ AgreeButTop t u := by
  obtain ⟨hv, ⟨hin, rfl⟩ | ⟨p, rest, hin, hcase⟩⟩ := step_next_cases hstep
  · exact ⟨_, step_of_nothing_presented hv hin, .inr rfl⟩
  · rw [step_of_presented (s := s.flipTop) hv hin]
    obtain ⟨hrst, rfl⟩ | ⟨hrst, hvalid, rfl⟩ | ⟨hrst, hvalid, i, hdecode, hex⟩ := hcase
    · exact ⟨_, runInput_of_reset hrst _, .inl rfl⟩
    · exact ⟨_, runInput_of_idle hrst hvalid _, .inr rfl⟩
    · rw [runInput_of_command hrst hvalid, runWord_of_decode hdecode]
      exact exec_flipTop (s := s.writeInput rest) hc hex

theorem AgreeButTop.after_step {s t u : State} (h : AgreeButTop s u) (hc : s.config = Config.default .b)
    (hstep : step s = .next t) : ∃ w, step u = .next w ∧ AgreeButTop t w := by
  obtain rfl | rfl := h
  · exact ⟨t, hstep, agreeButTop_refl t⟩
  · exact step_flipTop hc hstep

/-- A run keeps the states in lockstep: induction on the number of steps (R159). -/
theorem AgreeButTop.after_run {k : Nat} {s t u : State} (h : AgreeButTop s u) (hc : s.config = Config.default .b)
    (hrun : run k s = .next t) : ∃ w, run k u = .next w ∧ AgreeButTop t w := by
  induction k generalizing s u with
  | zero => exact ⟨u, run_zero u, next_inj hrun ▸ h⟩
  | succ k ih =>
    obtain ⟨s', hstep, hrest⟩ := run_succ_next hrun
    obtain ⟨u', hstep', h'⟩ := h.after_step hc hstep
    obtain ⟨hconfig, -⟩ := step_keeps_model_fields hstep
    obtain ⟨w, hrun', hw⟩ := ih h' (hconfig.trans hc) hrest
    exact ⟨w, (run_succ_of_next hstep').trans hrun', hw⟩

/-- Settles O50: states that agree but for bit 31 of `STATE` show the same ports. -/
theorem variantBDeadBit : Obligations.VariantBDeadBit := by
  unfold Obligations.VariantBDeadBit
  intro k s t hc hrun
  obtain ⟨u, hrun', hagree⟩ := (agreeButTop_flipTop s).after_run hc hrun
  exact ⟨u, hrun', hagree.level_eq, hagree.resp_eq, hagree⟩

end Sys2Proof.Machine
end
